-- ==== Sys2Proof/Word.lean ====
section
/-! DEFINITION. The word types of the USD codec block (00_scope.md R8, R9): fixed-width unsigned bit vectors,
and byte sequences as lists, index 0 first. -/

namespace Sys2Proof

/-- R9: a byte is a `u8`. -/
abbrev Byte := BitVec 8

/-- R8: `u16`, the width of a CRC register. -/
abbrev Word16 := BitVec 16

/-- R7 (`DATA_BITS` = 32): the width of the host bus and of a command word. -/
abbrev Word32 := BitVec 32

/-- R8: `u64`, the width of a FIELD register. -/
abbrev Word64 := BitVec 64

/-- R9: `Bytes`, a finite sequence of bytes. -/
abbrev Bytes := List Byte

end Sys2Proof
end

