-- ==== Sys2Proof/Syntax.lean ====
section
/-! DEFINITION. The instructions: the 18 commands of 30_encoding.md R92, one constructor per row of the opcode
table. A command carries no operand (R94: "Commands have no immediate operands"). -/

namespace Sys2Proof

/-- R92: the assigned commands, in the table's order. -/
inductive Instr where
  | crcCalc
  | crcUpdate
  | crcVerify
  | crcAppend
  | crcCheckStrip
  | cobsEncode
  | cobsDecode
  | cobsFrame
  | cobsUnframe
  | msgPack
  | msgUnpack
  | msgIsResponse
  | msgGetRequestId
  | msgClassify
  | structPack
  | structUnpack
  | txFrame
  | rxFrame
deriving DecidableEq, Repr

end Sys2Proof
end

