-- ==== Sys2Proof/Decode.lean ====
section
/-! DEFINITION. Decoding and encoding of a command word (30_encoding.md R90, R92, R93, R99). A command word is one
32-bit word; as bytes it is laid out little-endian like every access of the bus (20_memory.md R66; log 17). -/

namespace Sys2Proof

/-- Why bytes are no command: the opcode is reserved (R93; the block then completes with ILLEGAL_OP), or there are
fewer than the four bytes of a command word (R90: "Every command is exactly one 32-bit word"). -/
inductive DecodeReject where
  | reservedOpcode (op : BitVec 5)
  | truncated (bytes : Nat)
deriving DecidableEq, Repr

/-- R92, R99: the opcode map, read from the opcode to the operation. -/
def decodeOp (op : BitVec 5) : Except DecodeReject Instr :=
  match op.toNat with
  | 0x01 => .ok .crcCalc
  | 0x02 => .ok .crcUpdate
  | 0x03 => .ok .crcVerify
  | 0x04 => .ok .crcAppend
  | 0x05 => .ok .crcCheckStrip
  | 0x08 => .ok .cobsEncode
  | 0x09 => .ok .cobsDecode
  | 0x0A => .ok .cobsFrame
  | 0x0B => .ok .cobsUnframe
  | 0x10 => .ok .msgPack
  | 0x11 => .ok .msgUnpack
  | 0x12 => .ok .msgIsResponse
  | 0x13 => .ok .msgGetRequestId
  | 0x14 => .ok .msgClassify
  | 0x18 => .ok .structPack
  | 0x19 => .ok .structUnpack
  | 0x1C => .ok .txFrame
  | 0x1D => .ok .rxFrame
  | _ => .error (.reservedOpcode op)

/-- R90: the OP field, bits 4:0 of the command word. The other 27 bits are never decoded (R99). -/
def opField (w : Word32) : BitVec 5 := w.extractLsb' 0 5

/-- R99: "take `w[4:0]`. If it is in the table of rule R92, that row's operation runs." -/
def decodeWord (w : Word32) : Except DecodeReject Instr := decodeOp (opField w)

/-- R66: four bytes as a 32-bit word, the first byte in bits 7:0. -/
def wordOfBytes (b0 b1 b2 b3 : Byte) : Word32 := b3 ++ b2 ++ b1 ++ b0

/-- R66: the four bytes of a 32-bit word, bits 7:0 first. -/
def bytesOfWord (w : Word32) : Bytes :=
  [w.extractLsb' 0 8, w.extractLsb' 8 8, w.extractLsb' 16 8, w.extractLsb' 24 8]

/-- R90, R99: the command read from a byte sequence, and the bytes after it. Total: anything else is rejected by
name. -/
def decodeBytes : Bytes → Except DecodeReject (Instr × Bytes)
  | b0 :: b1 :: b2 :: b3 :: rest =>
    match decodeWord (wordOfBytes b0 b1 b2 b3) with
    | .ok i => .ok (i, rest)
    | .error e => .error e
  | short => .error (.truncated short.length)

/-- R92: the opcode map, read from the operation to the opcode. -/
def Instr.opcode : Instr → BitVec 5
  | .crcCalc => 0x01
  | .crcUpdate => 0x02
  | .crcVerify => 0x03
  | .crcAppend => 0x04
  | .crcCheckStrip => 0x05
  | .cobsEncode => 0x08
  | .cobsDecode => 0x09
  | .cobsFrame => 0x0A
  | .cobsUnframe => 0x0B
  | .msgPack => 0x10
  | .msgUnpack => 0x11
  | .msgIsResponse => 0x12
  | .msgGetRequestId => 0x13
  | .msgClassify => 0x14
  | .structPack => 0x18
  | .structUnpack => 0x19
  | .txFrame => 0x1C
  | .rxFrame => 0x1D

/-- R90: the command word of an instruction, bits 31:5 written as 0. -/
def encodeWord (i : Instr) : Word32 := i.opcode.setWidth 32

/-- R90, R66: the bytes of an instruction's command word. -/
def encode (i : Instr) : Bytes := bytesOfWord (encodeWord i)

/-- The instruction the decoder reads from the table word `w` of `nbits` bits, every bit above `nbits` being 0. -/
def decodeTableWord (nbits w : Nat) : Option Instr :=
  match decodeBytes (bytesOfWord (BitVec.ofNat 32 (w % 2 ^ nbits))) with
  | .ok (i, _) => some i
  | .error _ => none

end Sys2Proof
end

