-- ==== Sys2Proof/Config.lean ====
section
/-! DEFINITION. What is fixed when the block is built: the constants of 00_scope.md R6 and R7, the layout table of
43_struct.md R200, the two policy flags of R7, and the free values of R13 (constants with no body). -/

namespace Sys2Proof

/-- R200: the widths a layout field may take, 1, 2, 4 or 8 bytes. -/
inductive FieldWidth where
  | one
  | two
  | four
  | eight
deriving DecidableEq, Repr

/-- R200: `w`, a field's width in bytes. -/
def FieldWidth.bytes : FieldWidth → Nat
  | .one => 1
  | .two => 2
  | .four => 4
  | .eight => 8

/-- R200: `kind`, one of `INT`, `ENUM(S)` (the `8w`-bit raw values that are members) and `FLAGS(M)` (the `8w`-bit
mask of the defined flag bits). -/
inductive FieldKind (w : FieldWidth) where
  | int
  | enum (members : List (BitVec (8 * w.bytes)))
  | flags (mask : BitVec (8 * w.bytes))
deriving DecidableEq, Repr

/-- R200: one field descriptor of a layout. -/
structure FieldDesc where
  width : FieldWidth
  signed : Bool
  kind : FieldKind width
deriving DecidableEq, Repr

/-- R200: a layout is a list of 0 to 16 field descriptors. The bound is part of the type (log 14). -/
structure Layout where
  fields : List FieldDesc
  atMost16 : fields.length ≤ 16
deriving DecidableEq, Repr

/-- R7, R283: the parameters that are OPEN in the spec and fixed when the block is built. `none` in `layouts` is
`ABSENT`. -/
structure Config where
  layouts : Vector (Option Layout) 16
  strictZero : Bool
  rejectTrailing : Bool
deriving DecidableEq, Repr

/-- R6 `COBS_MAX_IN`: the largest input `cobs_encode` accepts. -/
abbrev Config.cobsMaxIn : Nat := 250

/-- R6 `COBS_MAX_CODE`: the code byte of a block of 254 data bytes with no implied zero. -/
abbrev Config.cobsMaxCode : Nat := 0xFF

/-- R6 `DELIM`: the frame delimiter. -/
abbrev Config.delim : Byte := 0x00

/-- R6 `CRC_INIT`: the initial CRC register value. -/
abbrev Config.crcInit : Word16 := 0xFFFF

/-- R6 `CRC_POLY`: the generator without its x^16 term. -/
abbrev Config.crcPoly : Word16 := 0x1021

/-- R6 `MSG_MAX_PAYLOAD`: the largest payload `msg_pack` accepts. -/
abbrev Config.msgMaxPayload : Nat := 250

/-- R6 `RESP_BIT`: the response bit of a message id. -/
abbrev Config.respBit : Byte := 0x80

/-- R6 `REQ_MASK`: the mask that recovers the request id. -/
abbrev Config.reqMask : Byte := 0x7F

/-- R7 `BUF_CAP`: the capacity of each of IN and OUT. -/
abbrev Config.bufCap : Nat := 256

/-- R23: the window offset of `IN[0]`. -/
abbrev Config.inBase : Nat := 0x100

/-- R23: the window offset of `OUT[0]`. -/
abbrev Config.outBase : Nat := 0x200

/-- R23: the window offset of `FIELD_LO[0]`. -/
abbrev Config.fieldBase : Nat := 0x080

/-- R13: an unspecified value of width `w`, drawn by the step that is draw number `draw`, for the thing at window
offset `place`. It has no body: nothing can be proved of its value (log 3). -/
opaque Config.unspecified (w draw place : Nat) : BitVec w

/-- R7 `LAYOUTS` (OPEN): the layout table the block was built with. It has no body: the source gives no layout
(91_not_in_source.md N2; log 5). -/
opaque Config.builtLayouts : Vector (Option Layout) 16

/-- R7: the configuration at reset: the layouts the block was built with, and the two policy flags at the default
the spec gives them (log 5). -/
def Config.built : Config :=
  { layouts := Config.builtLayouts, strictZero := false, rejectTrailing := false }

end Sys2Proof
end

