-- ==== Sys2Proof/Machine/State.lean ====
section
/-! DEFINITION. The state of the block (10_state.md R20 to R44), the host interface's own data (20_memory.md R60,
R61; 00_scope.md R14), the reasons a step can stop, and the state after reset (70_reset_and_hazards.md R280). -/

namespace Sys2Proof.Machine

/-- R250: the error codes a command can end with. Code 0 is "no error", code 15 is never produced. -/
inductive ErrorCode where
  | oversize
  | cobsZeroCode
  | cobsOverrun
  | cobsDataZero
  | missingDelimiter
  | checksumMismatch
  | msgTooShort
  | msgTruncated
  | msgTrailing
  | structTooShort
  | enumUnknown
  | fieldRange
  | badLayout
  | illegalOp
deriving DecidableEq, Repr

/-- What a register of width `w` holds: a value, or the spec's "unspecified value" (R13), which R254 writes into the
members of a failed command's output set. Every read of `unspecified` is a fresh free draw (log 3). -/
inductive Content (w : Nat) where
  | value (v : BitVec w)
  | unspecified
deriving DecidableEq, Repr

/-- R39, R67: a 64-bit FIELD register, held as the two halves the bus sees. -/
structure FieldReg where
  lo : Content 32
  hi : Content 32
deriving DecidableEq, Repr

/-- R25: the fields of STATUS. Bits 7:4 and 31:12 are reserved, read 0 and ignore writes, so they are no state. -/
structure Status where
  busy : Bool
  done : Bool
  bool : Bool
  haz  : Bool
  err  : BitVec 4
deriving DecidableEq, Repr

/-- R40, R41: the bytes of IN and OUT that hold a value, keyed by window offset, offsets strictly rising. A byte that
is not listed is unspecified (log 3). -/
abbrev Memory := List Host.Cell

/-- R60: the sizes of a bus access, 1, 2 or 4 bytes. -/
inductive AccessWidth where
  | byte
  | half
  | word
deriving DecidableEq, Repr

/-- R60, R61: a host access at a byte offset of the 4 KiB window. Of a write's data the low `8n` bits are the value
(log 8). -/
inductive Access where
  | read (off : BitVec 12) (width : AccessWidth)
  | write (off : BitVec 12) (width : AccessWidth) (data : Word32)
deriving DecidableEq, Repr

/-- R14: one step of one of the three agents. -/
inductive Event where
  | host (a : Access)
  | engine
  | reset
deriving DecidableEq, Repr

/-- R60, R61: a bus response is OK or ERROR. -/
inductive BusStatus where
  | ok
  | error
deriving DecidableEq, Repr

/-- R60, R61: what the host gets back: the response, and the data of a read (0 on ERROR and for a write; log 8). -/
structure BusResponse where
  status : BusStatus
  data : Word32
deriving DecidableEq, Repr

/-- R20: the state of the block; below the line, the model's own fields (INVENTORY.md, State). -/
structure State where
  /-- R25 to R30 -/
  status    : Status
  /-- R31 -/
  inLen     : BitVec 9
  /-- R32 -/
  outLen    : BitVec 9
  /-- R33 -/
  crcArg    : Word16
  /-- R34, R254 -/
  crcRes    : Content 16
  /-- R35 -/
  msgId     : Byte
  /-- R36, R254 -/
  resId     : Content 8
  /-- R37, R254 -/
  resLen    : Content 8
  /-- R38 -/
  layout    : BitVec 4
  /-- R39, R67, R254 -/
  fields    : Vector FieldReg 16
  /-- R40, R41: IN and OUT -/
  mem       : Memory
  /-- R42 -/
  latchedOp : BitVec 5
  /-- The model's own: the build's parameters (R7, R283; log 5). -/
  config    : Config
  /-- The model's own: the steps still to come (R14; log 1). -/
  agenda    : List Event
  /-- The model's own: the bus responses so far, newest first (log 8). -/
  responses : List BusResponse
  /-- The model's own: how many steps have drawn unspecified values (R13; log 3). -/
  draws     : Nat
deriving DecidableEq, Repr

/-- Why the machine stops with a fault. NO CONSTRUCTOR: nothing in the spec stops the block (R259: errors are
"non-fatal"; R70: a bus ERROR changes no state). Nobody raises one (log 10). -/
inductive Fault where
deriving DecidableEq, Repr

/-- Why a step has no meaning. -/
inductive Refusal where
  /-- Raised by `exec` alone, for an instruction whose meaning is not written; safe (the model stops). No arm of
  `exec` raises it any more. -/
  | notModelled (mnemonic : String)
deriving DecidableEq, Repr

/-- R44, R280: STATUS after reset. -/
def Status.reset : Status :=
  { busy := false, done := false, bool := false, haz := false, err := 0 }

/-- R44, R280: the state after reset. IN and OUT are unspecified (nothing listed); `config` is the build's (log 5);
`agenda`, `responses` and `draws` start empty (log 4, 6). -/
def State.reset : State :=
  { status := Status.reset
    inLen := 0
    outLen := 0
    crcArg := 0x0000
    crcRes := .value 0x0000
    msgId := 0x00
    resId := .value 0x00
    resLen := .value 0x00
    layout := 0
    fields := Vector.replicate 16 { lo := .value 0, hi := .value 0 }
    mem := []
    latchedOp := 0
    config := Config.built
    agenda := []
    responses := []
    draws := 0 }

end Sys2Proof.Machine
end

