-- ==== Sys2Proof/Machine/Flags.lean ====
section
/-! DEFINITION. STATUS: its word, the numbers of the error codes, and every change the spec makes to its fields
(10_state.md R25 to R30, R43; 60_exceptions.md R250). -/

namespace Sys2Proof.Machine

/-- R250: the 4-bit code of each error. -/
def ErrorCode.code : ErrorCode → BitVec 4
  | .oversize => 1
  | .cobsZeroCode => 2
  | .cobsOverrun => 3
  | .cobsDataZero => 4
  | .missingDelimiter => 5
  | .checksumMismatch => 6
  | .msgTooShort => 7
  | .msgTruncated => 8
  | .msgTrailing => 9
  | .structTooShort => 10
  | .enumUnknown => 11
  | .fieldRange => 12
  | .badLayout => 13
  | .illegalOp => 14

/-- R25: STATUS as the host reads it: ERR in 11:8, HAZ 3, BOOL 2, DONE 1, BUSY 0, every other bit 0. -/
def Status.word (s : Status) : Word32 :=
  (0 : BitVec 20) ++ s.err ++ (0 : BitVec 4) ++ BitVec.ofBool s.haz ++ BitVec.ofBool s.bool ++ BitVec.ofBool s.done
    ++ BitVec.ofBool s.busy

/-- R91: acceptance sets BUSY and clears DONE, ERR and BOOL. HAZ is unchanged (R29). -/
def Status.accepted (s : Status) : Status :=
  { busy := true, done := false, bool := false, haz := s.haz, err := 0 }

/-- R253, R254: completion clears BUSY, sets DONE and writes ERR and BOOL (log 9). HAZ is unchanged (R29). -/
def Status.completed (s : Status) (bool : Bool) (err : BitVec 4) : Status :=
  { busy := false, done := true, bool := bool, haz := s.haz, err := err }

/-- R29: a dropped write sets HAZ. -/
def Status.hazSet (s : Status) : Status := { s with haz := true }

/-- R25, R29: a STATUS write with bit 3 set clears HAZ. -/
def Status.hazCleared (s : Status) : Status := { s with haz := false }

end Sys2Proof.Machine
end

