-- ==== Sys2Proof/Machine/Bytes.lean ====
section
/-! DEFINITION. Byte order helpers of 00_scope.md R9: `le16`, `le_bytes` and `from_le`. -/

namespace Sys2Proof.Machine

/-- R9: `le16(v)` is `[v[7:0], v[15:8]]`. -/
def le16 (v : Word16) : Bytes := [v.extractLsb' 0 8, v.extractLsb' 8 8]

/-- R9: `le_bytes(v, w)`, the `w` bytes of `v`, least-significant first. -/
def leBytes (w : Nat) {n : Nat} (v : BitVec n) : Bytes :=
  (List.range w).map fun i => v.extractLsb' (8 * i) 8

/-- R9: `from_le(d)`, the sum of `d[i] * 256^i`. -/
def fromLe : Bytes → Nat
  | [] => 0
  | b :: bs => b.toNat + 256 * fromLe bs

end Sys2Proof.Machine
end

