-- ==== Sys2Proof/Machine/Operands.lean ====
section
/-! DEFINITION. Reading: one byte of IN or OUT, a register's content, and every operand form of 30_encoding.md R94
(IN bytes, a FIELD value, the selected layout). A read of an unspecified value is a free draw (00_scope.md R13). -/

namespace Sys2Proof.Machine

/-- The byte held at window offset `a`; `none` where the byte is unspecified (log 3). -/
def Memory.read? : Memory → Nat → Option Byte
  | [], _ => none
  | (a, b) :: m, k => if a = k then some b else Memory.read? m k

/-- R13: the value a read of a register's content gives: the value held, or the free draw of this step. -/
def Content.read {w : Nat} (c : Content w) (draw place : Nat) : BitVec w :=
  match c with
  | .value v => v
  | .unspecified => Config.unspecified w draw place

/-- R13, R40, R41: the byte of IN or OUT at window offset `a`, as a read in this step sees it. -/
def State.byteAt (s : State) (a : Nat) : Byte :=
  match s.mem.read? a with
  | some b => b
  | none => Config.unspecified 8 s.draws a

/-- R11, R94: `IN[0..n)`. -/
def State.inBytes (s : State) (n : Nat) : Bytes :=
  (List.range n).map fun j => s.byteAt (Config.inBase + j)

/-- R31, R94: the input of a command that reads IN, `IN[0..IN_LEN)`. -/
def State.input (s : State) : Bytes := s.inBytes s.inLen.toNat

/-- R23: the window offset of `FIELD_LO[i]`. -/
def fieldLoOffset (i : Nat) : Nat := Config.fieldBase + 8 * i

/-- R23: the window offset of `FIELD_HI[i]`. -/
def fieldHiOffset (i : Nat) : Nat := Config.fieldBase + 8 * i + 4

/-- R67: `FIELD[i] = FIELD_HI[i] << 32 | FIELD_LO[i]`. -/
def State.fieldValue (s : State) (i : Fin 16) : Word64 :=
  s.fields[i].hi.read s.draws (fieldHiOffset i) ++ s.fields[i].lo.read s.draws (fieldLoOffset i)

/-- R94, R207: the field values `FIELD[0], ..., FIELD[15]`, of which STRUCT_PACK takes the first k. -/
def State.fieldValues (s : State) : List Word64 := (List.finRange 16).map s.fieldValue

/-- R38, R94: `LAYOUTS[LAYOUT]`; `none` is ABSENT. -/
def State.selectedLayout (s : State) : Option Layout :=
  s.config.layouts[s.layout.toNat]'(s.layout.isLt)

/-- R94, R252: `k`, the field count of the selected layout, 0 if it is ABSENT. -/
def State.fieldCount (s : State) : Nat :=
  match s.selectedLayout with
  | some l => l.fields.length
  | none => 0

end Sys2Proof.Machine
end

