-- ==== Sys2Proof/Machine/Ops.lean ====
section
/-! DEFINITION. The named operations over memory and registers, and completing a command, with or without error, as
ONE shared operation (60_exceptions.md R252 to R254). The block has no trap: an error completion is all there is to
"taking an exception" (R257), and there is nothing to return from (R258). -/

namespace Sys2Proof.Machine

/-! ## Memory -/

/-- The canonical form: offsets strictly rising, each inside IN or OUT (R62). -/
abbrev Memory.wf (m : Memory) : Prop :=
  m.Pairwise (fun c d => c.1 < d.1) ∧
    ∀ c ∈ m, Config.inBase ≤ c.1 ∧ c.1 < Config.outBase + Config.bufCap

/-- Store one byte, keeping the offsets rising. -/
def Memory.write : Memory → Nat → Byte → Memory
  | [], k, v => [(k, v)]
  | (a, b) :: m, k, v =>
    if k < a then (k, v) :: (a, b) :: m
    else if k = a then (k, v) :: m
    else (a, b) :: Memory.write m k v

/-- R66: store a byte sequence at rising offsets, the first byte at `a`. -/
def Memory.writeBytes : Memory → Nat → Bytes → Memory
  | m, _, [] => m
  | m, a, b :: bs => Memory.writeBytes (m.write a b) (a + 1) bs

/-- R254: make the `n` bytes from offset `a` on unspecified. -/
def Memory.forget (m : Memory) (a n : Nat) : Memory :=
  m.filter fun c => decide (c.1 < a ∨ a + n ≤ c.1)

/-! ## Operand registers: the host's stores (R61 (a)) -/

def State.setInLen (s : State) (v : BitVec 9) : State := { s with inLen := v }

def State.setCrcArg (s : State) (v : Word16) : State := { s with crcArg := v }

def State.setMsgId (s : State) (v : Byte) : State := { s with msgId := v }

def State.setLayout (s : State) (v : BitVec 4) : State := { s with layout := v }

/-- R67: "A write to one half leaves the other half unchanged." -/
def State.setFieldLo (s : State) (i : Fin 16) (v : Word32) : State :=
  { s with fields := s.fields.set i { s.fields[i] with lo := .value v } }

/-- R67. -/
def State.setFieldHi (s : State) (i : Fin 16) (v : Word32) : State :=
  { s with fields := s.fields.set i { s.fields[i] with hi := .value v } }

/-- R66: store bytes at a window offset. -/
def State.storeBytes (s : State) (a : Nat) (bs : Bytes) : State :=
  { s with mem := s.mem.writeBytes a bs }

/-! ## The protocol's updates -/

/-- R91: accept a command word: latch its opcode, set BUSY, clear DONE, ERR and BOOL. -/
def State.accept (s : State) (w : Word32) : State :=
  { s with status := s.status.accepted, latchedOp := opField w }

/-- R285, R286: a dropped write sets HAZ and stores nothing. -/
def State.dropWrite (s : State) : State := { s with status := s.status.hazSet }

/-- R25: HAZ is cleared. -/
def State.clearHaz (s : State) : State := { s with status := s.status.hazCleared }

/-- R60, R61: the host gets a bus response. -/
def State.reply (s : State) (r : BusResponse) : State := { s with responses := r :: s.responses }

/-- R13: this step has drawn its unspecified values; the next step draws others. -/
def State.countDraw (s : State) : State := { s with draws := s.draws + 1 }

/-- R14: the agents' remaining steps. -/
def State.setAgenda (s : State) (es : List Event) : State := { s with agenda := es }

/-! ## Completing a command -/

/-- R252: a command's output set beside STATUS and OUT_LEN, which every completion writes. `fields` is the number
`k` of FIELD registers in it. -/
structure OutputSet where
  crcRes : Bool := false
  resId  : Bool := false
  resLen : Bool := false
  out    : Bool := false
  fields : Nat := 0
deriving DecidableEq, Repr

/-- R94: the "writes" column, for a selected layout of `k` fields. -/
def outputSetOf (i : Instr) (k : Nat) : OutputSet :=
  match i with
  | .crcCalc => { crcRes := true }
  | .crcUpdate => { crcRes := true }
  | .crcVerify => { crcRes := true }
  | .crcAppend => { crcRes := true, out := true }
  | .crcCheckStrip => { crcRes := true, out := true }
  | .cobsEncode => { out := true }
  | .cobsDecode => { out := true }
  | .cobsFrame => { out := true }
  | .cobsUnframe => { out := true }
  | .msgPack => { out := true }
  | .msgUnpack => { resId := true, resLen := true, out := true }
  | .msgIsResponse => {}
  | .msgGetRequestId => { resId := true }
  | .msgClassify => { resId := true }
  | .structPack => { out := true }
  | .structUnpack => { fields := k }
  | .txFrame => { crcRes := true, out := true }
  | .rxFrame => { crcRes := true, resId := true, resLen := true, out := true }

/-- R94 (last row), R256: the output set of a reserved opcode is OUT_LEN alone. -/
def reservedOutputSet : OutputSet := {}

/-- R94, R99, R252: the output set of the command in LATCHED_OP. -/
def State.runningOutputSet (s : State) : OutputSet :=
  match decodeOp s.latchedOp with
  | .ok i => outputSetOf i s.fieldCount
  | .error _ => reservedOutputSet

/-- What the body of a command that ends without error writes: the results it has, its byte output `OUT[0..n)`
(`[]` for a command with no byte output: OUT_LEN is then 0, R32), `FIELD[0..k)`, and BOOL (0 unless the body writes
it, R253). -/
structure Effect where
  crcRes : Option Word16 := none
  resId  : Option Byte := none
  resLen : Option Byte := none
  fields : List Word64 := []
  out    : Bytes := []
  bool   : Bool := false
deriving DecidableEq, Repr

/-- A result register after a success: the body's value, or what it held. -/
def Content.update {w : Nat} (c : Content w) (v : Option (BitVec w)) : Content w :=
  match v with
  | some x => .value x
  | none => c

/-- A result register after an error: unspecified if it is in the output set (R254). -/
def Content.forgetIf {w : Nat} (c : Content w) (inSet : Bool) : Content w :=
  if inSet then .unspecified else c

/-- R67: a FIELD register that holds a 64-bit value. -/
def FieldReg.ofValue (v : Word64) : FieldReg :=
  { lo := .value (v.extractLsb' 0 32), hi := .value (v.extractLsb' 32 32) }

/-- R208: `FIELD[i] <- v[i]` for each i below the number of values; the others are kept. -/
def writeFields (fs : Vector FieldReg 16) (vs : List Word64) : Vector FieldReg 16 :=
  Vector.ofFn fun i => if h : i.val < vs.length then FieldReg.ofValue vs[i.val] else fs[i]

/-- R254: `FIELD[0..k)` becomes unspecified. -/
def forgetFields (fs : Vector FieldReg 16) (k : Nat) : Vector FieldReg 16 :=
  Vector.ofFn fun i => if i.val < k then { lo := .unspecified, hi := .unspecified } else fs[i]

/-- R253: the body's writes take effect. OUT_LEN is always written (R32); `OUT[n..256)` is kept (R41). -/
def State.writeEffect (s : State) (e : Effect) : State :=
  { s with
    crcRes := s.crcRes.update e.crcRes
    resId := s.resId.update e.resId
    resLen := s.resLen.update e.resLen
    fields := writeFields s.fields e.fields
    mem := s.mem.writeBytes Config.outBase e.out
    outLen := BitVec.ofNat 9 e.out.length }

/-- R254: none of the body's writes are kept: OUT_LEN is 0 and every other member of the output set is
unspecified, all 256 bytes of OUT if OUT is one. DESIGN CHOICE, unsafe (log 19): if OUT is not one (CRC_CALC,
CRC_UPDATE, CRC_VERIFY, STRUCT_UNPACK, a reserved opcode) OUT is kept, as R93, R94, R252, R254, R256 and R257 say,
though R41 and R289 word it of any failed command. -/
def State.forgetOutputs (s : State) (o : OutputSet) : State :=
  { s with
    crcRes := s.crcRes.forgetIf o.crcRes
    resId := s.resId.forgetIf o.resId
    resLen := s.resLen.forgetIf o.resLen
    fields := forgetFields s.fields o.fields
    mem := if o.out then s.mem.forget Config.outBase Config.bufCap else s.mem
    outLen := 0 }

/-- R253: the end of the completion step: BUSY 0, DONE 1, BOOL and ERR written. The step's operand reads have drawn
their unspecified values (log 3). -/
def State.finish (s : State) (bool : Bool) (err : BitVec 4) : State :=
  { s with status := s.status.completed bool err, draws := s.draws + 1 }

/-- R253, R254: complete the busy command, whose output set is `o` and whose body gave `r`. -/
def State.complete (s : State) (o : OutputSet) (r : Except ErrorCode Effect) : State :=
  match r with
  | .ok e => (s.writeEffect e).finish e.bool 0
  | .error c => (s.forgetOutputs o).finish false c.code

/-- R253: the completion step of the assigned command `i`, whose body gave `r`. -/
def completeCommand (i : Instr) (r : Except ErrorCode Effect) (s : State) : Host.Outcome State Fault Refusal :=
  .next (s.complete (outputSetOf i s.fieldCount) r)

/-- R93, R256: a reserved opcode completes with ILLEGAL_OP. -/
def completeReserved (s : State) : Host.Outcome State Fault Refusal :=
  .next (s.complete reservedOutputSet (.error .illegalOp))

/-- R255 (1): the length bound that comes before every check of a command that reads IN: OVERSIZE when IN_LEN is
above `cap`; else the body runs on `IN[0..IN_LEN)`. -/
def State.withInput (s : State) (cap : Nat) (body : Bytes → Except ErrorCode Effect) : Except ErrorCode Effect :=
  if cap < s.inLen.toNat then .error .oversize else body s.input

end Sys2Proof.Machine
end

