-- ==== Sys2Proof/Machine/Bus.lean ====
section
/-! DEFINITION. The host's bus accesses (20_memory.md R60 to R73, R84; 70_reset_and_hazards.md R285 to R287). -/

namespace Sys2Proof.Machine

/-- R60: `n`, the bytes of an access. -/
def AccessWidth.bytes : AccessWidth → Nat
  | .byte => 1
  | .half => 2
  | .word => 4

/-- R23: what stands at an offset of the window. -/
inductive Place where
  | cmd
  | status
  | inLen
  | outLen
  | crcArg
  | crcRes
  | msgId
  | resId
  | resLen
  | layout
  | fieldLo (i : Fin 16)
  | fieldHi (i : Fin 16)
  | inBuffer
  | outBuffer
  | nothing
deriving DecidableEq, Repr

/-- R23: the register of 0x000 to 0x027 that the word number `k` is. -/
def controlRegister (k : Nat) : Place :=
  match k with
  | 0 => .cmd
  | 1 => .status
  | 2 => .inLen
  | 3 => .outLen
  | 4 => .crcArg
  | 5 => .crcRes
  | 6 => .msgId
  | 7 => .resId
  | 8 => .resLen
  | 9 => .layout
  | _ => .nothing

/-- R23, R39: the FIELD half at `d` bytes from `FIELD_LO[0]`. -/
def fieldRegister (d : Nat) : Place :=
  if d % 8 < 4 then .fieldLo (Fin.ofNat 16 (d / 8)) else .fieldHi (Fin.ofNat 16 (d / 8))

/-- R23, R62, R68: the map of the window. -/
def placeAt (off : Nat) : Place :=
  if off < 0x028 then controlRegister (off / 4)
  else if off < Config.fieldBase then .nothing
  else if off < Config.inBase then fieldRegister (off - Config.fieldBase)
  else if off < Config.outBase then .inBuffer
  else if off < Config.outBase + Config.bufCap then .outBuffer
  else .nothing

/-- R64, R65: the widths allowed at a place; R68: none where nothing stands. -/
def widthAllowed (p : Place) (w : AccessWidth) : Bool :=
  match p with
  | .nothing => false
  | .inBuffer => true
  | .outBuffer => true
  | _ => w == .word

/-- R63, R64, R65, R68: the access gets OK; any other gets ERROR. -/
def accessAllowed (off : BitVec 12) (w : AccessWidth) : Bool :=
  off.toNat % w.bytes == 0 && widthAllowed (placeAt off.toNat) w

/-- R287: a member of the running command's output set reads as an unspecified value while BUSY = 1. -/
def State.hidden (s : State) (inSet : Bool) : Bool := s.status.busy && inSet

/-- R60, R287: a register's read value, `v` unless it is hidden. -/
def readUnlessHidden {w : Nat} (hidden : Bool) (draw place : Nat) (v : BitVec w) : BitVec w :=
  if hidden then Config.unspecified w draw place else v

/-- R60, R66: the `n` bytes at buffer offset `a`, the byte at `a` in bits 7:0, upper bits 0. -/
def State.readBuffer (s : State) (hidden : Bool) (a n : Nat) : Word32 :=
  BitVec.ofNat 32 (fromLe ((List.range n).map fun j => readUnlessHidden hidden s.draws (a + j) (s.byteAt (a + j))))

/-- R60, R23, R24, R287: the data of an allowed read. Bits outside the implemented bits are 0 (R23). -/
def State.readPlace (s : State) (off : Nat) (n : Nat) : Word32 :=
  let o := s.runningOutputSet
  match placeAt off with
  | .cmd => 0
  | .status => s.status.word
  | .inLen => s.inLen.setWidth 32
  | .outLen => (readUnlessHidden (s.hidden true) s.draws off s.outLen).setWidth 32
  | .crcArg => s.crcArg.setWidth 32
  | .crcRes => (readUnlessHidden (s.hidden o.crcRes) s.draws off (s.crcRes.read s.draws off)).setWidth 32
  | .msgId => s.msgId.setWidth 32
  | .resId => (readUnlessHidden (s.hidden o.resId) s.draws off (s.resId.read s.draws off)).setWidth 32
  | .resLen => (readUnlessHidden (s.hidden o.resLen) s.draws off (s.resLen.read s.draws off)).setWidth 32
  | .layout => s.layout.setWidth 32
  | .fieldLo i => readUnlessHidden (s.hidden (i.val < o.fields)) s.draws off (s.fields[i].lo.read s.draws off)
  | .fieldHi i => readUnlessHidden (s.hidden (i.val < o.fields)) s.draws off (s.fields[i].hi.read s.draws off)
  | .inBuffer => s.readBuffer false off n
  | .outBuffer => s.readBuffer (s.hidden o.out) off n
  | .nothing => 0

/-- R60: what `MemRead(off, n)` returns, `(ERROR, 0)` where the access is not allowed (R70). -/
def State.readResponse (s : State) (off : BitVec 12) (w : AccessWidth) : BusResponse :=
  if accessAllowed off w then { status := .ok, data := s.readPlace off.toNat w.bytes }
  else { status := .error, data := 0 }

/-- R60: `MemRead(off, n)`: the host gets the response; no state of the block changes (R73). A successful read has
drawn its unspecified values. -/
def State.memRead (s : State) (off : BitVec 12) (w : AccessWidth) : State :=
  if accessAllowed off w then s.countDraw.reply (s.readResponse off w) else s.reply (s.readResponse off w)

/-- R285: a store into an operand register or IN, dropped while BUSY = 1. -/
def State.unlessBusy (s stored : State) : State := if s.status.busy then s.dropWrite else stored

/-- R61: the effect of an allowed write of the value `v` of `n` bytes. -/
def State.writePlace (s : State) (off n : Nat) (v : Word32) : State :=
  match placeAt off with
  | .cmd => s.unlessBusy (s.accept v)
  | .status => if v.getLsbD 3 then s.clearHaz else s
  | .inLen => s.unlessBusy (s.setInLen (v.setWidth 9))
  | .outLen => s
  | .crcArg => s.unlessBusy (s.setCrcArg (v.setWidth 16))
  | .crcRes => s
  | .msgId => s.unlessBusy (s.setMsgId (v.setWidth 8))
  | .resId => s
  | .resLen => s
  | .layout => s.unlessBusy (s.setLayout (v.setWidth 4))
  | .fieldLo i => s.unlessBusy (s.setFieldLo i v)
  | .fieldHi i => s.unlessBusy (s.setFieldHi i v)
  | .inBuffer => s.unlessBusy (s.storeBytes off (leBytes n v))
  | .outBuffer => s
  | .nothing => s

/-- R61: `MemWrite(off, n, v)`; on ERROR no state changes (R70). -/
def State.memWrite (s : State) (off : BitVec 12) (w : AccessWidth) (v : Word32) : State :=
  if accessAllowed off w then (s.writePlace off.toNat w.bytes v).reply { status := .ok, data := 0 }
  else s.reply { status := .error, data := 0 }

/-- R14, R72: one step of the host. -/
def State.access (s : State) (a : Access) : State :=
  match a with
  | .read off w => s.memRead off w
  | .write off w v => s.memWrite off w v

end Sys2Proof.Machine
end

