-- ==== Sys2Proof/Machine/Cobs.lean ====
section
/-! DEFINITION. The COBS codec (41_cobs.md): the functions of R141, R142, R146 and R147 and the four commands of
R148 to R151. -/

namespace Sys2Proof.Machine

/-- R141: the encoder's working state: the output so far, the index of the current block's code byte (a placeholder
until the block closes), and 1 + the number of data bytes in the current block. -/
structure CobsEncoder where
  out  : Bytes
  ci   : Nat
  code : Nat
deriving DecidableEq, Repr

/-- R141: one placeholder, no data. -/
def cobsStart : CobsEncoder := { out := [0x00], ci := 0, code := 0x01 }

/-- R141: patch the current block's code byte into its placeholder. -/
def cobsPatch (e : CobsEncoder) : Bytes := e.out.set e.ci (BitVec.ofNat 8 e.code)

/-- R141: close the current block and open the next with a placeholder. -/
def cobsNextBlock (e : CobsEncoder) : CobsEncoder :=
  { out := cobsPatch e ++ [0x00], ci := e.out.length, code := 0x01 }

/-- R141: one input byte. A zero closes the block; the 254th data byte closes it with no implied zero. -/
def cobsPut (e : CobsEncoder) (b : Byte) : CobsEncoder :=
  if b = 0x00 then cobsNextBlock e
  else
    let e' : CobsEncoder := { out := e.out ++ [b], ci := e.ci, code := e.code + 1 }
    if e'.code = Config.cobsMaxCode then cobsNextBlock e' else e'

/-- R141: `cobs_encode(d)`. -/
def cobsEncode (d : Bytes) : Except ErrorCode Bytes :=
  if Config.cobsMaxIn < d.length then .error .oversize
  else .ok (cobsPatch (d.foldl cobsPut cobsStart))

/-- R142: the walk of `cobs_decode`, at a point where `need` data bytes of the current block are still to be copied
and `owed` says that the block is followed by an implied zero if bytes remain after it (its code is below 0xFF). With
`need = 0` the next byte is a code byte. `strict` is P_STRICT_ZERO (log 16). -/
def cobsWalk (strict : Bool) : (owed : Bool) → (need : Nat) → Bytes → Except ErrorCode Bytes
  | _, 0, [] => .ok []
  | _, _ + 1, [] => .error .cobsOverrun
  | owed, 0, code :: rest =>
    if code = 0x00 then .error .cobsZeroCode
    else
      match cobsWalk strict (decide (code.toNat < Config.cobsMaxCode)) (code.toNat - 1) rest with
      | .ok out => .ok (if owed then 0x00 :: out else out)
      | .error e => .error e
  | owed, need + 1, b :: rest =>
    if b = 0x00 ∧ strict = true then .error .cobsDataZero
    else
      match cobsWalk strict owed need rest with
      | .ok out => .ok (b :: out)
      | .error e => .error e

/-- R142: `cobs_decode(e)`. No zero is owed before the first block. -/
def cobsDecode (strict : Bool) (e : Bytes) : Except ErrorCode Bytes := cobsWalk strict false 0 e

/-- R146: `cobs_frame(d)`. -/
def cobsFrame (d : Bytes) : Except ErrorCode Bytes :=
  match cobsEncode d with
  | .ok r => .ok (r ++ [Config.delim])
  | .error e => .error e

/-- R147: `cobs_unframe(f)`. -/
def cobsUnframe (strict : Bool) (f : Bytes) : Except ErrorCode Bytes :=
  if f.getLast? = some Config.delim then cobsDecode strict f.dropLast else .error .missingDelimiter

/-- The effect of a body whose only result is its byte output. -/
def bytesOut (r : Except ErrorCode Bytes) : Except ErrorCode Effect :=
  match r with
  | .ok out => .ok { out := out }
  | .error e => .error e

/-- R148: the body of COBS_ENCODE. -/
def cobsEncodeBody (s : State) : Except ErrorCode Effect :=
  s.withInput Config.cobsMaxIn fun d => bytesOut (cobsEncode d)

/-- R149: the body of COBS_DECODE. -/
def cobsDecodeBody (s : State) : Except ErrorCode Effect :=
  s.withInput Config.bufCap fun d => bytesOut (cobsDecode s.config.strictZero d)

/-- R150: the body of COBS_FRAME. -/
def cobsFrameBody (s : State) : Except ErrorCode Effect :=
  s.withInput Config.cobsMaxIn fun d => bytesOut (cobsFrame d)

/-- R151: the body of COBS_UNFRAME. -/
def cobsUnframeBody (s : State) : Except ErrorCode Effect :=
  s.withInput Config.bufCap fun d => bytesOut (cobsUnframe s.config.strictZero d)

/-- R148: COBS_ENCODE. -/
def execCobsEncode (s : State) : Host.Outcome State Fault Refusal := completeCommand .cobsEncode (cobsEncodeBody s) s

/-- R149: COBS_DECODE. -/
def execCobsDecode (s : State) : Host.Outcome State Fault Refusal := completeCommand .cobsDecode (cobsDecodeBody s) s

/-- R150: COBS_FRAME. -/
def execCobsFrame (s : State) : Host.Outcome State Fault Refusal := completeCommand .cobsFrame (cobsFrameBody s) s

/-- R151: COBS_UNFRAME. -/
def execCobsUnframe (s : State) : Host.Outcome State Fault Refusal :=
  completeCommand .cobsUnframe (cobsUnframeBody s) s

end Sys2Proof.Machine
end

