-- ==== Sys2Proof/Machine/Crc.lean ====
section
/-! DEFINITION. The CRC-16 engine (40_crc.md): the functions of R110 to R114 and the five commands of R118 to
R122. -/

namespace Sys2Proof.Machine

/-- R110: one bit of the division, `<<` at 16 bits dropping the old bit 15. -/
def crcBit (c : Word16) : Word16 :=
  if c.msb then (c <<< 1) ^^^ Config.crcPoly else c <<< 1

/-- R110: one input byte, eight bits, most-significant bit first. -/
def crcByte (c : Word16) (b : Byte) : Word16 :=
  crcBit (crcBit (crcBit (crcBit (crcBit (crcBit (crcBit (crcBit (c ^^^ (b.setWidth 16 <<< 8)))))))))

/-- R110: `crc16_update(c, d)`. -/
def crc16Update (c : Word16) (d : Bytes) : Word16 := d.foldl crcByte c

/-- R111: `crc16_calculate(d)`. -/
def crc16Calculate (d : Bytes) : Word16 := crc16Update Config.crcInit d

/-- R112: `crc16_verify(d, e)`. -/
def crc16Verify (d : Bytes) (e : Word16) : Bool := crc16Calculate d == e

/-- R113: `crc16_append(d)`, the CRC low byte first. -/
def crc16Append (d : Bytes) : Bytes := d ++ le16 (crc16Calculate d)

/-- R114: the trailing two bytes read little-endian. -/
def trailingCrc (lo hi : Byte) : Word16 := lo.setWidth 16 ||| (hi.setWidth 16 <<< 8)

/-- R114: `crc16_check_and_strip(u)`, the data and the computed CRC. -/
def crc16CheckAndStrip (u : Bytes) : Except ErrorCode (Bytes × Word16) :=
  match u.drop (u.length - 2) with
  | [lo, hi] =>
    let d := u.take (u.length - 2)
    let c := crc16Calculate d
    if c = trailingCrc lo hi then .ok (d, c) else .error .checksumMismatch
  | _ => .error .checksumMismatch

/-- R118: the body of CRC_CALC. -/
def crcCalcBody (s : State) : Except ErrorCode Effect :=
  s.withInput Config.bufCap fun d => .ok { crcRes := some (crc16Calculate d) }

/-- R119: the body of CRC_UPDATE. -/
def crcUpdateBody (s : State) : Except ErrorCode Effect :=
  s.withInput Config.bufCap fun d => .ok { crcRes := some (crc16Update s.crcArg d) }

/-- R120: the body of CRC_VERIFY. A mismatch is no error. -/
def crcVerifyBody (s : State) : Except ErrorCode Effect :=
  s.withInput Config.bufCap fun d =>
    .ok { crcRes := some (crc16Calculate d), bool := crc16Verify d s.crcArg }

/-- R121: the body of CRC_APPEND. The output must fit OUT, so the bound is `BUF_CAP - 2`. -/
def crcAppendBody (s : State) : Except ErrorCode Effect :=
  s.withInput (Config.bufCap - 2) fun d =>
    .ok { crcRes := some (crc16Calculate d), out := crc16Append d }

/-- R122: the body of CRC_CHECK_STRIP. -/
def crcCheckStripBody (s : State) : Except ErrorCode Effect :=
  s.withInput Config.bufCap fun u =>
    match crc16CheckAndStrip u with
    | .ok (d, c) => .ok { crcRes := some c, out := d }
    | .error e => .error e

/-- R118: CRC_CALC. -/
def execCrcCalc (s : State) : Host.Outcome State Fault Refusal := completeCommand .crcCalc (crcCalcBody s) s

/-- R119: CRC_UPDATE. -/
def execCrcUpdate (s : State) : Host.Outcome State Fault Refusal := completeCommand .crcUpdate (crcUpdateBody s) s

/-- R120: CRC_VERIFY. -/
def execCrcVerify (s : State) : Host.Outcome State Fault Refusal := completeCommand .crcVerify (crcVerifyBody s) s

/-- R121: CRC_APPEND. -/
def execCrcAppend (s : State) : Host.Outcome State Fault Refusal := completeCommand .crcAppend (crcAppendBody s) s

/-- R122: CRC_CHECK_STRIP. -/
def execCrcCheckStrip (s : State) : Host.Outcome State Fault Refusal :=
  completeCommand .crcCheckStrip (crcCheckStripBody s) s

end Sys2Proof.Machine
end

