-- ==== Sys2Proof/Machine/Message.lean ====
section
/-! DEFINITION. The message layer (42_message.md): the functions of R170 to R174 and the five commands of R177 to
R181. -/

namespace Sys2Proof.Machine

/-- R170: `msg_pack(id, p)`. -/
def msgPack (id : Byte) (p : Bytes) : Except ErrorCode Bytes :=
  if Config.msgMaxPayload < p.length then .error .oversize
  else .ok (id :: BitVec.ofNat 8 p.length :: p)

/-- R171: what `msg_unpack` returns, `(b[0], L, b[2..2+L))`. -/
structure Message where
  id      : Byte
  length  : Byte
  payload : Bytes
deriving DecidableEq, Repr

/-- R171: `msg_unpack(b)`. `reject` is P_REJECT_TRAILING. A declared length above 250 is not checked
(90_conflicts.md C5). -/
def msgUnpack (reject : Bool) (b : Bytes) : Except ErrorCode Message :=
  match b with
  | id :: len :: rest =>
    if rest.length < len.toNat then .error .msgTruncated
    else if reject = true ∧ len.toNat < rest.length then .error .msgTrailing
    else .ok { id := id, length := len, payload := rest.take len.toNat }
  | _ => .error .msgTooShort

/-- R172: `msg_is_response(id)`, bit 7 (`RESP_BIT`). -/
def msgIsResponse (id : Byte) : Bool := id &&& Config.respBit != 0

/-- R173: `msg_request_id(id)`. -/
def msgRequestId (id : Byte) : Byte := id &&& Config.reqMask

/-- R174: `msg_group(id)`: 0 system, 1 motion, 2 configuration, 3 telemetry, 4 unassigned. -/
def msgGroup (id : Byte) : Byte :=
  let r := (msgRequestId id).toNat
  if r ≤ 0x0F then 0
  else if r ≤ 0x2F then 1
  else if r ≤ 0x3F then 2
  else if r ≤ 0x4F then 3
  else 4

/-- R177: the body of MSG_PACK. -/
def msgPackBody (s : State) : Except ErrorCode Effect :=
  s.withInput Config.msgMaxPayload fun p => bytesOut (msgPack s.msgId p)

/-- R178: the body of MSG_UNPACK. -/
def msgUnpackBody (s : State) : Except ErrorCode Effect :=
  s.withInput Config.bufCap fun b =>
    match msgUnpack s.config.rejectTrailing b with
    | .ok m => .ok { resId := some m.id, resLen := some m.length, out := m.payload }
    | .error e => .error e

/-- R179: the body of MSG_IS_RESPONSE. It does not read IN_LEN. -/
def msgIsResponseBody (s : State) : Except ErrorCode Effect := .ok { bool := msgIsResponse s.msgId }

/-- R180: the body of MSG_GET_REQUEST_ID. -/
def msgGetRequestIdBody (s : State) : Except ErrorCode Effect := .ok { resId := some (msgRequestId s.msgId) }

/-- R181: the body of MSG_CLASSIFY. -/
def msgClassifyBody (s : State) : Except ErrorCode Effect :=
  .ok { resId := some (msgGroup s.msgId), bool := msgIsResponse s.msgId }

/-- R177: MSG_PACK. -/
def execMsgPack (s : State) : Host.Outcome State Fault Refusal := completeCommand .msgPack (msgPackBody s) s

/-- R178: MSG_UNPACK. -/
def execMsgUnpack (s : State) : Host.Outcome State Fault Refusal := completeCommand .msgUnpack (msgUnpackBody s) s

/-- R179: MSG_IS_RESPONSE. -/
def execMsgIsResponse (s : State) : Host.Outcome State Fault Refusal :=
  completeCommand .msgIsResponse (msgIsResponseBody s) s

/-- R180: MSG_GET_REQUEST_ID. -/
def execMsgGetRequestId (s : State) : Host.Outcome State Fault Refusal :=
  completeCommand .msgGetRequestId (msgGetRequestIdBody s) s

/-- R181: MSG_CLASSIFY. -/
def execMsgClassify (s : State) : Host.Outcome State Fault Refusal :=
  completeCommand .msgClassify (msgClassifyBody s) s

end Sys2Proof.Machine
end

