-- ==== Sys2Proof/Machine/Pipeline.lean ====
section
/-! DEFINITION. The frame assembler and parser (44_pipeline.md): R230, R231 and the commands of R234 and R235. -/

namespace Sys2Proof.Machine

/-- R230: `tx_frame(id, p)`, the frame and the CRC of the message bytes. -/
def txFrame (id : Byte) (p : Bytes) : Except ErrorCode (Bytes × Word16) :=
  match msgPack id p with
  | .error e => .error e
  | .ok m =>
    match cobsFrame (crc16Append m) with
    | .error e => .error e
    | .ok f => .ok (f, crc16Calculate m)

/-- R231: `rx_frame(f)`, the unpacked message and the computed CRC. -/
def rxFrame (strict reject : Bool) (f : Bytes) : Except ErrorCode (Message × Word16) :=
  match cobsUnframe strict f with
  | .error e => .error e
  | .ok u =>
    match crc16CheckAndStrip u with
    | .error e => .error e
    | .ok (d, c) =>
      match msgUnpack reject d with
      | .error e => .error e
      | .ok m => .ok (m, c)

/-- R234: the body of TX_FRAME. An IN_LEN above BUF_CAP fails in `msg_pack` (R234). -/
def txFrameBody (s : State) : Except ErrorCode Effect :=
  match txFrame s.msgId s.input with
  | .ok (f, c) => .ok { crcRes := some c, out := f }
  | .error e => .error e

/-- R235: the body of RX_FRAME. -/
def rxFrameBody (s : State) : Except ErrorCode Effect :=
  s.withInput Config.bufCap fun f =>
    match rxFrame s.config.strictZero s.config.rejectTrailing f with
    | .ok (m, c) => .ok { crcRes := some c, resId := some m.id, resLen := some m.length, out := m.payload }
    | .error e => .error e

/-- R234: TX_FRAME. -/
def execTxFrame (s : State) : Host.Outcome State Fault Refusal := completeCommand .txFrame (txFrameBody s) s

/-- R235: RX_FRAME. -/
def execRxFrame (s : State) : Host.Outcome State Fault Refusal := completeCommand .rxFrame (rxFrameBody s) s

end Sys2Proof.Machine
end

