-- ==== Sys2Proof/Machine/Struct.lean ====
section
/-! DEFINITION. Typed payload structures (43_struct.md): the functions of R201 to R205 and the two commands of R207
and R208. -/

namespace Sys2Proof.Machine

/-- R201: `N`, the byte width of a field list. -/
def fieldsWidth (fs : List FieldDesc) : Nat := (fs.map fun f => f.width.bytes).sum

/-- R202: `fits(v, f)`. -/
def fieldFits (f : FieldDesc) (v : Word64) : Bool :=
  if f.signed then
    decide (-(2 ^ (8 * f.width.bytes - 1) : Int) ≤ v.toInt ∧ v.toInt ≤ 2 ^ (8 * f.width.bytes - 1) - 1)
  else decide (v.toNat < 2 ^ (8 * f.width.bytes))

/-- R203: `member(raw, f)`. -/
def fieldMember (f : FieldDesc) (raw : BitVec (8 * f.width.bytes)) : Bool :=
  match f.kind with
  | .int => true
  | .enum members => members.contains raw
  | .flags mask => raw &&& ~~~mask == 0

/-- R12, R205: `sext_64(raw)` for a signed field, `zext_64(raw)` for an unsigned one. -/
def fieldWiden (f : FieldDesc) (raw : BitVec (8 * f.width.bytes)) : Word64 :=
  if f.signed then raw.signExtend 64 else raw.setWidth 64

/-- R204: the loop of `struct_pack`, over fields paired with their values. -/
def packFields : List (FieldDesc × Word64) → Except ErrorCode Bytes
  | [] => .ok []
  | (f, v) :: rest =>
    if fieldFits f v then
      let raw := v.setWidth (8 * f.width.bytes)
      if fieldMember f raw then
        match packFields rest with
        | .ok out => .ok (leBytes f.width.bytes raw ++ out)
        | .error e => .error e
      else .error .enumUnknown
    else .error .fieldRange

/-- R204: `struct_pack(L, v[0..k))`. Values beyond the k-th are not looked at. -/
def structPack (l : Layout) (vs : List Word64) : Except ErrorCode Bytes := packFields (l.fields.zip vs)

/-- R205: the loop of `struct_unpack`, each field's bytes taken from the front of what is left (R201: the fields are
packed in list order with no padding). -/
def unpackFields : List FieldDesc → Bytes → Except ErrorCode (List Word64)
  | [], _ => .ok []
  | f :: fs, b =>
    let raw := BitVec.ofNat (8 * f.width.bytes) (fromLe (b.take f.width.bytes))
    if fieldMember f raw then
      match unpackFields fs (b.drop f.width.bytes) with
      | .ok vs => .ok (fieldWiden f raw :: vs)
      | .error e => .error e
    else .error .enumUnknown

/-- R205: `struct_unpack(L, b)`. The length check comes first. -/
def structUnpack (l : Layout) (b : Bytes) : Except ErrorCode (List Word64) :=
  if b.length < fieldsWidth l.fields then .error .structTooShort else unpackFields l.fields b

/-- R207: the body of STRUCT_PACK. It does not read IN_LEN. -/
def structPackBody (s : State) : Except ErrorCode Effect :=
  match s.selectedLayout with
  | none => .error .badLayout
  | some l => bytesOut (structPack l s.fieldValues)

/-- R208: the body of STRUCT_UNPACK. -/
def structUnpackBody (s : State) : Except ErrorCode Effect :=
  s.withInput Config.bufCap fun b =>
    match s.selectedLayout with
    | none => .error .badLayout
    | some l =>
      match structUnpack l b with
      | .ok vs => .ok { fields := vs }
      | .error e => .error e

/-- R207: STRUCT_PACK. -/
def execStructPack (s : State) : Host.Outcome State Fault Refusal := completeCommand .structPack (structPackBody s) s

/-- R208: STRUCT_UNPACK. -/
def execStructUnpack (s : State) : Host.Outcome State Fault Refusal :=
  completeCommand .structUnpack (structUnpackBody s) s

end Sys2Proof.Machine
end

