-- ==== Sys2Proof/Machine/Dispatch.lean ====
section
/-! DEFINITION. The dispatch: the completion step of each assigned command (60_exceptions.md R253). -/

namespace Sys2Proof.Machine

/-- R253: run the body of the command `i` and complete it. -/
def exec (i : Instr) (s : State) : Host.Outcome State Fault Refusal :=
  match i with
  | .crcCalc => Sys2Proof.Machine.execCrcCalc s
  | .crcUpdate => Sys2Proof.Machine.execCrcUpdate s
  | .crcVerify => Sys2Proof.Machine.execCrcVerify s
  | .crcAppend => Sys2Proof.Machine.execCrcAppend s
  | .crcCheckStrip => Sys2Proof.Machine.execCrcCheckStrip s
  | .cobsEncode => Sys2Proof.Machine.execCobsEncode s
  | .cobsDecode => Sys2Proof.Machine.execCobsDecode s
  | .cobsFrame => Sys2Proof.Machine.execCobsFrame s
  | .cobsUnframe => Sys2Proof.Machine.execCobsUnframe s
  | .msgPack => Sys2Proof.Machine.execMsgPack s
  | .msgUnpack => Sys2Proof.Machine.execMsgUnpack s
  | .msgIsResponse => Sys2Proof.Machine.execMsgIsResponse s
  | .msgGetRequestId => Sys2Proof.Machine.execMsgGetRequestId s
  | .msgClassify => Sys2Proof.Machine.execMsgClassify s
  | .structPack => Sys2Proof.Machine.execStructPack s
  | .structUnpack => Sys2Proof.Machine.execStructUnpack s
  | .txFrame => Sys2Proof.Machine.execTxFrame s
  | .rxFrame => Sys2Proof.Machine.execRxFrame s

end Sys2Proof.Machine
end

