-- ==== Sys2Proof/Machine/Agents.lean ====
section
/-! DEFINITION. The three agents of 00_scope.md R14 and whose turn it is: one step is the head of the agenda; with
the agenda used up, a busy engine completes (weak fairness) and an idle block keeps its state (60_exceptions.md R268;
log 1, 2). -/

namespace Sys2Proof.Machine

/-- R253: the completion step of the command in LATCHED_OP; "unassigned opcodes give Err(ILLEGAL_OP)". -/
def engineStep (s : State) : Host.Outcome State Fault Refusal :=
  match decodeOp s.latchedOp with
  | .ok i => exec i s
  | .error _ => completeReserved s

/-- R14, R253: the engine's turn: its step "is enabled only while `STATUS.BUSY = 1`"; else nothing happens. -/
def engineTurn (s : State) : Host.Outcome State Fault Refusal :=
  if s.status.busy then engineStep s else .next s

/-- R280, R281: reset puts every piece of the spec's state to its reset value. What the build fixed, what the agents
still do, the responses given and the draw counter are not the block's state (log 6). -/
def State.resetEvent (s : State) : State :=
  { State.reset with
    config := s.config
    agenda := s.agenda
    responses := s.responses
    draws := s.draws }

/-- R14: one step of one agent. -/
def agentStep (s : State) : Host.Outcome State Fault Refusal :=
  match s.agenda with
  | [] => engineTurn s
  | .host a :: rest => .next ((s.setAgenda rest).access a)
  | .engine :: rest => engineTurn (s.setAgenda rest)
  | .reset :: rest => .next (s.setAgenda rest).resetEvent

/-- A state in which the command word `w` has just been accepted and the next turn is the engine's (log 7). -/
def State.placeCommand (s : State) (w : Word32) : State :=
  (s.accept w).setAgenda (.engine :: s.agenda)

end Sys2Proof.Machine
end

