-- ==== Sys2Proof/Machine/Step.lean ====
section
/-! DEFINITION. The step of the machine, and how the host's checks make the next step run a given command. -/

namespace Sys2Proof.Machine

/-- R14: one step of one agent. -/
def step (s : State) : Host.Outcome State Fault Refusal := agentStep s

/-- The command word `w` accepted, and the engine's turn next (R91, R253; log 7). -/
def State.withFetchWord (s : State) (nbits w : Nat) : State :=
  s.placeCommand (BitVec.ofNat 32 (w % 2 ^ nbits))

end Sys2Proof.Machine
end

