-- ==== Sys2Proof/Machine/HostProgram.lean ====
section
/-! DEFINITION. The host-program syntax of 30_encoding.md R97 and the pseudo-instructions of R98, as the lists of bus
accesses they stand for. Labels and jumps make no access and stand in no list (R98; log 15). -/

namespace Sys2Proof.Machine

/-- R97: `W32 off, v`. -/
def w32 (off : BitVec 12) (v : Word32) : Event := .host (.write off .word v)

/-- R97: `W16 off, v`. -/
def w16 (off : BitVec 12) (v : Word16) : Event := .host (.write off .half (v.setWidth 32))

/-- R97: `W8 off, v`. -/
def w8 (off : BitVec 12) (v : Byte) : Event := .host (.write off .byte (v.setWidth 32))

/-- R97: `R32 off -> x`. -/
def r32 (off : BitVec 12) : Event := .host (.read off .word)

/-- R97: `R16 off -> x`. -/
def r16 (off : BitVec 12) : Event := .host (.read off .half)

/-- R97: `R8 off -> x`. -/
def r8 (off : BitVec 12) : Event := .host (.read off .byte)

/-- R98: `CMD m` is `W32 CMD, op(m)`. -/
def cmd (i : Instr) : Event := w32 0x000 (encodeWord i)

/-- R98: `WAIT`, in the run in which STATUS reads BUSY = 1 `k` times before the engine's turn and BUSY = 0 after
it. -/
def wait (k : Nat) : List Event := List.replicate k (r32 0x004) ++ [.engine, r32 0x004]

/-- R98, `SETIN`: a word store for each full group of four bytes, then byte stores, from `IN+j` on. -/
def setInBytes : Nat → Bytes → List Event
  | j, b0 :: b1 :: b2 :: b3 :: rest =>
    w32 (BitVec.ofNat 12 (Config.inBase + j)) (wordOfBytes b0 b1 b2 b3) :: setInBytes (j + 4) rest
  | j, b :: rest => w8 (BitVec.ofNat 12 (Config.inBase + j)) b :: setInBytes (j + 1) rest
  | _, [] => []

/-- R98: `SETIN b0, ..., b(k-1)`, ending with `W32 IN_LEN, k`. -/
def setIn (bs : Bytes) : List Event := setInBytes 0 bs ++ [w32 0x008 (BitVec.ofNat 32 bs.length)]

/-- R98: `GETOUT -> d`, where OUT_LEN reads `n`. -/
def getOut (n : Nat) : List Event :=
  r32 0x00C :: (List.range n).map fun j => r8 (BitVec.ofNat 12 (Config.outBase + j))

/-- R98: `SETF i, v`. -/
def setF (i : Fin 16) (v : Word64) : List Event :=
  [w32 (BitVec.ofNat 12 (fieldLoOffset i)) (v.extractLsb' 0 32),
   w32 (BitVec.ofNat 12 (fieldHiOffset i)) (v.extractLsb' 32 32)]

/-- R98: `CLRHAZ`. -/
def clrHaz : Event := w32 0x004 0x8

end Sys2Proof.Machine
end

