-- ==== Sys2Proof/WellFormed.lean ====
section
/-! DEFINITION. Well-formedness. A command has no operand field to check (30_encoding.md R94), so every `Instr` is
well formed; what can be ill formed is the 32-bit word a host writes to CMD: its bits 31:5 "software should write 0"
(R90), and its opcode may be reserved (R93). -/

namespace Sys2Proof

/-- R94: no command carries an operand, so there is nothing an instruction could get wrong. -/
def Instr.wellFormed : Instr → Bool
  | .crcCalc | .crcUpdate | .crcVerify | .crcAppend | .crcCheckStrip => true
  | .cobsEncode | .cobsDecode | .cobsFrame | .cobsUnframe => true
  | .msgPack | .msgUnpack | .msgIsResponse | .msgGetRequestId | .msgClassify => true
  | .structPack | .structUnpack => true
  | .txFrame | .rxFrame => true

/-- R93: the opcode values that are not assigned. -/
def reservedOpcodes : List (BitVec 5) :=
  [0x00, 0x06, 0x07, 0x0C, 0x0D, 0x0E, 0x0F, 0x15, 0x16, 0x17, 0x1A, 0x1B, 0x1E, 0x1F]

/-- R90: the ignored bits 31:5 of a command word are written as 0. -/
def upperBitsZero (w : Word32) : Bool := w.extractLsb' 5 27 == 0

/-- R93: the opcode of a command word is assigned. -/
def opcodeAssigned (w : Word32) : Bool := !reservedOpcodes.contains (w.extractLsb' 0 5)

/-- R90, R93: a command word as careful software writes it. The block accepts any other word too (R99). -/
def wordWellFormed (w : Word32) : Bool := upperBitsZero w && opcodeAssigned w

end Sys2Proof
end

