-- ==== Sys2Proof/Safety.lean ====
section
/-! DEFINITION. The terms the statements are made in: the invariant of the block, what a completed command looks
like, the tables of the spec a command is held against, lawful accesses, a host that polls, and the block structure
of COBS. Each is written from the spec's rule, not from the model's functions. -/

namespace Sys2Proof.Machine

/-! ## The invariant of the block -/

/-- What every reachable state of the block satisfies (10_state.md R27 to R32, 60_exceptions.md R250, R254,
70_reset_and_hazards.md R287). -/
structure BlockInvariant (s : State) : Prop where
  /-- R27: "BUSY and DONE are never both 1". -/
  notBusyAndDone : ¬(s.status.busy = true ∧ s.status.done = true)
  /-- R28, R30: acceptance cleared ERR and BOOL. -/
  busyClear : s.status.busy = true → s.status.err = 0 ∧ s.status.bool = false
  /-- R27: BUSY = 0 and DONE = 0 means that no command has run since reset. -/
  idleSinceReset : s.status.busy = false → s.status.done = false →
    s.status.err = 0 ∧ s.status.bool = false ∧ s.outLen = 0 ∧ s.latchedOp = 0
  /-- R250: code 15 is "never produced". -/
  errCodeUsed : s.status.err ≠ 15
  /-- R254: after an error OUT_LEN and BOOL are 0. -/
  errClears : s.status.err ≠ 0 → s.outLen = 0 ∧ s.status.bool = false
  /-- R32: OUT_LEN is "0 to 256". -/
  outLenInBuffer : s.outLen.toNat ≤ 256
  /-- The byte list keeps its canonical form. -/
  memoryCanonical : s.mem.wf

/-! ## A completed command -/

/-- R253: STATUS after a completion without error: BUSY 0, DONE 1, ERR 0, HAZ as before, BOOL as the body says. -/
def Succeeded (s t : State) (bool : Bool) : Prop :=
  t.status = { busy := false, done := true, bool := bool, haz := s.status.haz, err := 0 }

/-- R250: the number of each error, from the table. -/
def errorNumber (e : ErrorCode) : BitVec 4 :=
  match e with
  | .oversize => 1
  | .cobsZeroCode => 2
  | .cobsOverrun => 3
  | .cobsDataZero => 4
  | .missingDelimiter => 5
  | .checksumMismatch => 6
  | .msgTooShort => 7
  | .msgTruncated => 8
  | .msgTrailing => 9
  | .structTooShort => 10
  | .enumUnknown => 11
  | .fieldRange => 12
  | .badLayout => 13
  | .illegalOp => 14

/-- R250, R254: STATUS, with the number of the table in ERR, and OUT_LEN after a completion with error `e`. -/
def FailedWith (s t : State) (e : ErrorCode) : Prop :=
  t.status = { busy := false, done := true, bool := false, haz := s.status.haz, err := errorNumber e } ∧ t.outLen = 0

/-- R32, R41: OUT_LEN is the length of `out` and `OUT[0..OUT_LEN)` is `out`. -/
def OutHolds (t : State) (out : Bytes) : Prop :=
  t.outLen.toNat = out.length ∧ ∀ (j : Nat) (h : j < out.length), t.mem.read? (0x200 + j) = some out[j]

/-- R40: `IN[0..IN_LEN)` is `d`, every byte of it written. -/
def InHolds (s : State) (d : Bytes) : Prop :=
  s.inLen.toNat = d.length ∧ ∀ (j : Nat) (h : j < d.length), s.mem.read? (0x100 + j) = some d[j]

/-! ## The tables of the spec -/

/-- R34, R94: the commands that write CRC_RES. -/
def writesCrcRes (i : Instr) : Bool :=
  [Instr.crcCalc, .crcUpdate, .crcVerify, .crcAppend, .crcCheckStrip, .txFrame, .rxFrame].contains i

/-- R36, R94: the commands that write RES_ID. -/
def writesResId (i : Instr) : Bool := [Instr.msgUnpack, .rxFrame, .msgGetRequestId, .msgClassify].contains i

/-- R37, R94: the commands that write RES_LEN. -/
def writesResLen (i : Instr) : Bool := [Instr.msgUnpack, .rxFrame].contains i

/-- R94: the commands that write OUT. -/
def writesOut (i : Instr) : Bool :=
  [Instr.crcAppend, .crcCheckStrip, .cobsEncode, .cobsDecode, .cobsFrame, .cobsUnframe, .msgPack, .msgUnpack,
   .structPack, .txFrame, .rxFrame].contains i

/-- R94, R208, R252: `FIELD[j]` is in the output set. -/
def WritesField (i : Instr) (s : State) (j : Fin 16) : Prop := i = .structUnpack ∧ j.val < s.fieldCount

/-- R255 (1): the length bound of a command that reads IN. -/
def inputCap (i : Instr) : Option Nat :=
  match i with
  | .crcCalc | .crcUpdate | .crcVerify | .crcCheckStrip => some 256
  | .crcAppend => some 254
  | .cobsEncode | .cobsFrame => some 250
  | .cobsDecode | .cobsUnframe => some 256
  | .msgPack => some 250
  | .msgUnpack => some 256
  | .msgIsResponse | .msgGetRequestId | .msgClassify | .structPack => none
  | .structUnpack => some 256
  | .txFrame => some 246
  | .rxFrame => some 256

/-- R250: the codes a command can end with beside NONE and, where it reads IN, OVERSIZE. -/
def possibleErrors (i : Instr) : List Nat :=
  match i with
  | .crcCalc | .crcUpdate | .crcVerify | .crcAppend => []
  | .crcCheckStrip => [6]
  | .cobsEncode | .cobsFrame => []
  | .cobsDecode => [2, 3, 4]
  | .cobsUnframe => [2, 3, 4, 5]
  | .msgPack => []
  | .msgUnpack => [7, 8, 9]
  | .msgIsResponse | .msgGetRequestId | .msgClassify => []
  | .structPack => [11, 12, 13]
  | .structUnpack => [10, 11, 13]
  | .txFrame => []
  | .rxFrame => [2, 3, 4, 5, 6, 7, 8, 9]

/-- R99, R252, R287: a command with the property `p` is running (a reserved opcode is no command). -/
def RunningWrites (s : State) (p : Instr → Prop) : Prop :=
  s.status.busy = true ∧ ∃ i : Instr, decodeOp s.latchedOp = .ok i ∧ p i

/-- R201, R205: the raw value of field `k` of a layout, the little-endian bytes at the width of the fields before it. -/
def rawField (l : Layout) (b : Bytes) (k : Nat) (f : FieldDesc) : BitVec (8 * f.width.bytes) :=
  BitVec.ofNat (8 * f.width.bytes) (fromLe ((b.drop (fieldsWidth (l.fields.take k))).take f.width.bytes))

/-! ## Operands -/

/-- R94, R259: the two states give a command the same operands: the operand registers, IN, the FIELD registers, the
configuration, and the draw counter, of which unspecified operands are a function. -/
structure SameOperands (s t : State) : Prop where
  inLen  : s.inLen = t.inLen
  crcArg : s.crcArg = t.crcArg
  msgId  : s.msgId = t.msgId
  layout : s.layout = t.layout
  fields : s.fields = t.fields
  input  : ∀ a, 0x100 ≤ a → a < 0x200 → s.mem.read? a = t.mem.read? a
  config : s.config = t.config
  draws  : s.draws = t.draws

/-! ## Bus accesses -/

/-- R63, R64, R65, R68: aligned; 4 bytes in the register region, 1, 2 or 4 in the buffers; nothing else is there. -/
def LegalAccess (off : Nat) (w : AccessWidth) : Prop :=
  off % w.bytes = 0 ∧
    ((w = .word ∧ (off < 0x028 ∨ (0x080 ≤ off ∧ off < 0x100))) ∨ (0x100 ≤ off ∧ off < 0x300))

/-- R285: a write that would store into IN_LEN, CRC_ARG, MSG_ID, LAYOUT, a FIELD half or IN. -/
def StoresOperand (off : Nat) (w : AccessWidth) : Prop :=
  LegalAccess off w ∧
    (off = 0x008 ∨ off = 0x010 ∨ off = 0x018 ∨ off = 0x024 ∨ (0x080 ≤ off ∧ off < 0x200))

/-- R69: a write to OUT_LEN, CRC_RES, RES_ID, RES_LEN or OUT. -/
def StoresReadOnly (off : Nat) (w : AccessWidth) : Prop :=
  LegalAccess off w ∧ (off = 0x00C ∨ off = 0x014 ∨ off = 0x01C ∨ off = 0x020 ∨ (0x200 ≤ off ∧ off < 0x300))

/-- R23: the implemented bits of a register as a read sees them (CMD reads as 0). -/
def readMask (off : Nat) : Word32 :=
  match off with
  | 0x000 => 0
  | 0x004 => 0xF0F
  | 0x008 => 0x1FF
  | 0x00C => 0x1FF
  | 0x010 => 0xFFFF
  | 0x014 => 0xFFFF
  | 0x018 => 0xFF
  | 0x01C => 0xFF
  | 0x020 => 0xFF
  | 0x024 => 0xF
  | _ => 0xFFFFFFFF

/-- R23, R24, R25: the bits of a register that a write can matter in. -/
def writeMask (off : Nat) : Word32 :=
  match off with
  | 0x000 => 0x1F
  | 0x004 => 0x8
  | 0x008 => 0x1FF
  | 0x010 => 0xFFFF
  | 0x018 => 0xFF
  | 0x024 => 0xF
  | 0x00C => 0
  | 0x014 => 0
  | 0x01C => 0
  | 0x020 => 0
  | _ => 0xFFFFFFFF

/-! ## A host that polls -/

/-- The offset an access goes to. -/
def accessOffset (a : Access) : BitVec 12 :=
  match a with
  | .read off _ => off
  | .write off _ _ => off

/-- R288: between a CMD write and the command's completion the host accesses STATUS alone. -/
def polite : (busy : Bool) → List Event → Bool
  | _, [] => true
  | _, .engine :: es => polite false es
  | _, .reset :: es => polite false es
  | true, .host a :: es => accessOffset a == 0x004 && polite true es
  | false, .host (.write off .word _) :: es => polite (off == 0x000) es
  | false, .host _ :: es => polite false es

/-! ## The CRC bit by bit (40_crc.md R110) -/

/-- R110: the bits of a byte, "most-significant bit first". -/
def bitsMsbFirst (b : Byte) : List Bool :=
  [b.getLsbD 7, b.getLsbD 6, b.getLsbD 5, b.getLsbD 4, b.getLsbD 3, b.getLsbD 2, b.getLsbD 1, b.getLsbD 0]

/-- R110: one input bit enters the register of the generator 0x1021: the register shifts left by one, and the
generator is added where the bit that leaves differs from the bit that enters. -/
def crcShift (c : Word16) (b : Bool) : Word16 := (c <<< 1) ^^^ (if c.msb != b then 0x1021 else 0)

/-! ## COBS blocks (41_cobs.md R140) -/

/-- R140: a block is a code byte `c` and `c - 1` data bytes. -/
def cobsBlock (d : Bytes) : Bytes := BitVec.ofNat 8 (d.length + 1) :: d

/-- R140: an encoded sequence is a run of blocks. -/
def cobsBlocks (ds : List Bytes) : Bytes := ds.flatMap cobsBlock

/-- R140: the decoded output: "a block with `c < 0xFF` that is not the last block is followed by one zero byte". -/
def cobsJoin : List Bytes → Bytes
  | [] => []
  | [d] => d
  | d :: d' :: ds => d ++ (if d.length < 254 then [0x00] else []) ++ cobsJoin (d' :: ds)

end Sys2Proof.Machine
end

