-- ==== Sys2Proof/Certificates/Slice0/Obligations.lean ====
section
/-! DEFINITION. The statements for the provers. -/

open Sys2Proof Sys2Proof.Machine

/-! ## Encoding -/

/-- R92, R99: a few command words written out from the opcode map, with ignored bits set in two of them. The byte order
of the one written as bytes is R66's, read for a command word (log 17). -/
def Obligations.DecodesWrittenCommandWords : Prop :=
  decodeWord 0x00000001 = .ok .crcCalc ∧ decodeWord 0xFFFFFFE1 = .ok .crcCalc ∧
  decodeWord 0x0000000A = .ok .cobsFrame ∧ decodeWord 0x00000014 = .ok .msgClassify ∧
  decodeWord 0x80000019 = .ok .structUnpack ∧ decodeBytes [0x1D, 0x00, 0x00, 0x00] = .ok (.rxFrame, []) ∧
  decodeWord 0x00000000 = .error (.reservedOpcode 0x00) ∧ decodeWord 0x0000001F = .error (.reservedOpcode 0x1F)

/-- R90, R92, R93, R99: encoding then decoding gives the command back; a word decodes to a command exactly when its
low five bits are the command's opcode, whatever the other 27 bits are; it is rejected exactly when they are one of the
14 reserved opcodes. -/
def Obligations.DecodeAndEncodeAgree : Prop :=
  (∀ (i : Instr) (rest : Bytes), i.wellFormed = true → decodeBytes (encode i ++ rest) = .ok (i, rest)) ∧
  (∀ (w : Word32) (i : Instr), decodeWord w = .ok i ↔ w.extractLsb' 0 5 = i.opcode) ∧
  (∀ (w : Word32), decodeWord w = .error (.reservedOpcode (w.extractLsb' 0 5)) ↔
    w.extractLsb' 0 5 ∈ reservedOpcodes)

/-! ## The turns of the agents -/

/-- R14, R93, R253, R268, R280: the engine's turn on a busy block, whether the agenda gives it the turn or is used up,
is the completion step of the command its latched opcode decodes to, or of a reserved opcode; a host turn is the access
alone; a reset turn is State.reset but for what is not the block's (log 6); the engine's turn on an idle block, and an
idle block with nothing to do, keep the state (log 1, 2). -/
def Obligations.StepGivesEachAgentItsTurn : Prop :=
  ∀ (s : State) (rest : List Event),
    (∀ i : Instr, s.status.busy = true → decodeOp s.latchedOp = .ok i →
      (s.agenda = .engine :: rest → step s = exec i { s with agenda := rest }) ∧
      (s.agenda = [] → step s = exec i s)) ∧
    (s.status.busy = true → s.latchedOp ∈ reservedOpcodes →
      (s.agenda = .engine :: rest → step s = completeReserved { s with agenda := rest }) ∧
      (s.agenda = [] → step s = completeReserved s)) ∧
    (∀ a, s.agenda = .host a :: rest → step s = .next (({ s with agenda := rest } : State).access a)) ∧
    (s.agenda = .reset :: rest → step s = .next { State.reset with
      config := s.config, agenda := rest, responses := s.responses, draws := s.draws }) ∧
    (s.status.busy = false → s.agenda = .engine :: rest → step s = .next { s with agenda := rest }) ∧
    (s.status.busy = false → s.agenda = [] → step s = .next s)

/-- R91: a CMD write to an idle block latches the opcode, sets BUSY, clears DONE, ERR and BOOL and changes nothing else;
while busy it is dropped and sets HAZ; a reserved opcode is accepted too, and the engine then completes it with
ILLEGAL_OP. The agenda and the recorded response are the model's (log 1, 8). -/
def Obligations.CmdWriteAcceptsCommand : Prop :=
  ∀ (s : State) (w : Word32) (rest : List Event), s.agenda = .host (.write 0x000 .word w) :: rest →
    (s.status.busy = false →
      step s = .next { s with
        agenda := rest
        status := { busy := true, done := false, bool := false, haz := s.status.haz, err := 0 }
        latchedOp := w.extractLsb' 0 5
        responses := { status := .ok, data := 0 } :: s.responses }) ∧
    (s.status.busy = true →
      step s = .next { s with
        agenda := rest
        status := { s.status with haz := true }
        responses := { status := .ok, data := 0 } :: s.responses }) ∧
    (s.status.busy = false → w.extractLsb' 0 5 ∈ reservedOpcodes → ∀ t : State, step s = .next t →
      ∃ u : State, engineStep t = .next u ∧ u.status.err = 14 ∧ u.status.busy = false ∧ u.status.done = true)

/-- R256, R93: a reserved opcode completes with ERR = 14, OUT_LEN = 0 and BOOL = 0, and no other state changes, OUT not
either (R41 and R289 may be read otherwise: log 19), whether the agenda gives the engine its turn or is used up. The
agenda and the draw counter are the model's (log 1, 2, 3). -/
def Obligations.ReservedOpcodeCompletesIllegalOp : Prop :=
  ∀ (s : State) (rest : List Event), s.status.busy = true → s.latchedOp ∈ reservedOpcodes →
    (s.agenda = .engine :: rest ∨ (s.agenda = [] ∧ rest = [])) →
      step s = .next { s with
        agenda := rest
        status := { busy := false, done := true, bool := false, haz := s.status.haz, err := 14 }
        outLen := 0
        draws := s.draws + 1 }

/-- R280, R281, R44: the reset event, at any time, gives every piece of the block's state its reset value, whatever it
was; IN and OUT are unspecified; what is not the block's state is kept (log 6); an abandoned command's completion is
not taken. -/
def Obligations.ResetGivesResetValues : Prop :=
  ∀ (s : State) (rest : List Event), s.agenda = .reset :: rest →
    ∃ t : State, step s = .next t ∧
      t.status = { busy := false, done := false, bool := false, haz := false, err := 0 } ∧
      t.inLen = 0 ∧ t.outLen = 0 ∧ t.crcArg = 0 ∧ t.crcRes = .value 0 ∧ t.msgId = 0 ∧ t.resId = .value 0 ∧
      t.resLen = .value 0 ∧ t.layout = 0 ∧ (∀ j : Fin 16, t.fields[j] = { lo := .value 0, hi := .value 0 }) ∧
      (∀ a, t.mem.read? a = none) ∧ t.latchedOp = 0 ∧ t.config = s.config ∧ t.agenda = rest ∧
      (∀ es, t.agenda = .engine :: es → step t = .next { t with agenda := es })

/-! ## Invariants and whole-machine rules -/

/-- The state after reset meets the invariant. -/
def Obligations.ResetStateMeetsBlockInvariant : Prop := BlockInvariant State.reset

/-- R27, R28, R30, R32, R250, R254: every step of every agent keeps the invariant. -/
def Obligations.EveryStepKeepsBlockInvariant : Prop :=
  ∀ s t : State, BlockInvariant s → step s = .next t → BlockInvariant t

/-- R259: nothing stops the block: every step of every state answers a next state, and so does every command. -/
def Obligations.NothingStopsTheBlock : Prop :=
  (∀ s : State, ∃ t : State, step s = .next t) ∧ (∀ (i : Instr) (s : State), ∃ t : State, exec i s = .next t)

/-- R283: no step of any agent, reset among them, changes the configuration (held in State: log 5). -/
def Obligations.ConfigurationNeverChanges : Prop :=
  ∀ (k : Nat) (s t : State), Host.Core.run Sys2Proof.core k s = .next t → t.config = s.config

/-- R284: through any number of host accesses after acceptance, every operand of the busy command keeps its value up to
the engine's turn: the operand registers, every byte of IN, the FIELD registers, and the latched opcode. The agenda
is the model's (log 1). -/
def Obligations.BusyCommandOperandsAreStable : Prop :=
  ∀ (as : List Access) (s : State) (rest : List Event), s.status.busy = true →
    s.agenda = as.map Event.host ++ .engine :: rest →
      ∃ t : State, Host.Core.run Sys2Proof.core as.length s = .next t ∧ t.agenda = .engine :: rest ∧
        t.status.busy = true ∧ t.latchedOp = s.latchedOp ∧ t.inLen = s.inLen ∧ t.crcArg = s.crcArg ∧
        t.msgId = s.msgId ∧ t.layout = s.layout ∧ t.fields = s.fields ∧ t.config = s.config ∧ t.mem = s.mem

/-- R14, R268, R292: whatever the agents still do, the block is not busy at some point within one step more than the
agenda is long (weak fairness as the model takes it: log 1, 2). -/
def Obligations.BusyBlockBecomesIdle : Prop :=
  ∀ s : State, ∃ (k : Nat) (t : State), k ≤ s.agenda.length + 1 ∧
    Host.Core.run Sys2Proof.core k s = .next t ∧ t.status.busy = false

/-- R288: a host that accesses STATUS alone while a command runs never has HAZ set, and never reads anything but STATUS
while the block is busy. The agenda is the model's (log 1). -/
def Obligations.PollingHostNeverSetsHazard : Prop :=
  ∀ (k : Nat) (s t : State), polite s.status.busy s.agenda = true → s.status.haz = false →
    Host.Core.run Sys2Proof.core k s = .next t →
      t.status.haz = false ∧
      (t.status.busy = true → ∀ a rest, t.agenda = .host a :: rest → accessOffset a = 0x004)

/-- R290, R259: a command's results depend on its operands alone: not on STATUS, OUT, CRC_RES, RES_ID, RES_LEN, OUT_LEN
or on how the command before it ended. Operands that are unspecified are the same draws (log 3, 13). -/
def Obligations.ResultsDependOnOperandsAlone : Prop :=
  ∀ (i : Instr) (s s' t t' : State), SameOperands s s' → exec i s = .next t → exec i s' = .next t' →
    t.status.err = t'.status.err ∧ t.status.bool = t'.status.bool ∧ t.outLen = t'.outLen ∧
    (writesCrcRes i = true → t.crcRes = t'.crcRes) ∧
    (writesResId i = true → t.resId = t'.resId) ∧
    (writesResLen i = true → t.resLen = t'.resLen) ∧
    (∀ j < t.outLen.toNat, t.mem.read? (0x200 + j) = t'.mem.read? (0x200 + j)) ∧
    (∀ j : Fin 16, WritesField i s j → t.fields[j] = t'.fields[j])

/-! ## Completion: frames and errors -/

/-- R252, R253: the frame of all 18 commands. A completion clears BUSY, sets DONE, keeps HAZ, and leaves every operand
register, LATCHED_OP, every byte outside OUT, and every result register, FIELD register and OUT byte outside the
command's output set as it was. That a failed command without OUT in its output set keeps OUT is the model's choice
between R252, R254 and R41, R289 (log 19). R28: BOOL is 0 after every command but CRC_VERIFY, MSG_IS_RESPONSE and
MSG_CLASSIFY. -/
def Obligations.CompletionWritesOnlyItsOutputSet : Prop :=
  ∀ (i : Instr) (s t : State), exec i s = .next t →
    t.status.busy = false ∧ t.status.done = true ∧ t.status.haz = s.status.haz ∧
    t.inLen = s.inLen ∧ t.crcArg = s.crcArg ∧ t.msgId = s.msgId ∧ t.layout = s.layout ∧
    t.latchedOp = s.latchedOp ∧ t.config = s.config ∧ t.agenda = s.agenda ∧ t.responses = s.responses ∧
    (writesCrcRes i = false → t.crcRes = s.crcRes) ∧
    (writesResId i = false → t.resId = s.resId) ∧
    (writesResLen i = false → t.resLen = s.resLen) ∧
    (∀ j : Fin 16, ¬WritesField i s j → t.fields[j] = s.fields[j]) ∧
    (∀ a, a < 0x200 ∨ 0x300 ≤ a → t.mem.read? a = s.mem.read? a) ∧
    (writesOut i = false → t.outLen = 0 ∧ ∀ a, t.mem.read? a = s.mem.read? a) ∧
    (i ≠ .crcVerify → i ≠ .msgIsResponse → i ≠ .msgClassify → t.status.bool = false)

/-- R41, R289: a command that ends without error stores to `OUT[0..OUT_LEN)` and to no other byte; `OUT[OUT_LEN..256)`
keeps what it held. -/
def Obligations.SuccessStoresOnlyBelowOutLen : Prop :=
  ∀ (i : Instr) (s t : State), exec i s = .next t → t.status.err = 0 →
    ∀ a, a < 0x200 ∨ 0x200 + t.outLen.toNat ≤ a → t.mem.read? a = s.mem.read? a

/-- R254: a command that ends with an error leaves BOOL = 0, OUT_LEN = 0 and every other member of its output set
unspecified: CRC_RES, RES_ID, RES_LEN, every byte of OUT, and FIELD[0..k). A failed command that does not write OUT
keeps it, in CompletionWritesOnlyItsOutputSet (log 19). -/
def Obligations.ErrorLeavesOutputSetUnspecified : Prop :=
  ∀ (i : Instr) (s t : State), exec i s = .next t → t.status.err ≠ 0 →
    t.status.bool = false ∧ t.outLen = 0 ∧
    (writesCrcRes i = true → t.crcRes = .unspecified) ∧
    (writesResId i = true → t.resId = .unspecified) ∧
    (writesResLen i = true → t.resLen = .unspecified) ∧
    (writesOut i = true → ∀ j < 256, t.mem.read? (0x200 + j) = none) ∧
    (∀ j : Fin 16, WritesField i s j → t.fields[j] = { lo := .unspecified, hi := .unspecified })

/-- R255 (1): for every command that reads IN, an IN_LEN above the command's bound gives OVERSIZE, before every other
check; the four commands that do not read IN never give it. -/
def Obligations.OversizeInputIsCheckedFirst : Prop :=
  ∀ (i : Instr) (s : State),
    (∀ cap, inputCap i = some cap → cap < s.inLen.toNat →
      ∃ t : State, exec i s = .next t ∧ FailedWith s t .oversize) ∧
    (∀ t : State, inputCap i = none → exec i s = .next t → t.status.err ≠ 1)

/-- R250: each error code is given only by the commands the table lists for it; COBS_DATA_ZERO only under P_STRICT_ZERO
and MSG_TRAILING only under P_REJECT_TRAILING. -/
def Obligations.ErrorCodesComeFromTheirCommands : Prop :=
  ∀ (i : Instr) (s t : State), exec i s = .next t →
    (t.status.err = 0 ∨ (t.status.err = 1 ∧ (inputCap i).isSome = true) ∨
      t.status.err.toNat ∈ possibleErrors i) ∧
    (t.status.err = 4 → s.config.strictZero = true) ∧
    (t.status.err = 9 → s.config.rejectTrailing = true)

/-! ## Operands -/

/-- R31, R40, R67, R94: the input of a command has IN_LEN bytes, each the byte IN holds; a FIELD operand is
`FIELD_HI << 32 | FIELD_LO`; the layout operand is `LAYOUTS[LAYOUT]`. -/
def Obligations.OperandsAreAssembledFromRegisters : Prop :=
  ∀ s : State,
    s.input.length = s.inLen.toNat ∧
    (∀ j b, s.inLen.toNat ≤ 256 → j < s.inLen.toNat → s.mem.read? (0x100 + j) = some b → s.input[j]? = some b) ∧
    (∀ (j : Fin 16) (lo hi : Word32), s.fields[j] = { lo := .value lo, hi := .value hi } →
      s.fieldValue j = (hi.setWidth 64 <<< 32) ||| lo.setWidth 64) ∧
    (∀ j : Fin 16, s.fieldValues[j.val]? = some (s.fieldValue j)) ∧
    (∀ j : Fin 16, s.layout.toNat = j.val → s.selectedLayout = s.config.layouts[j])

/-! ## CRC-16 (40_crc.md) -/

/-- R118, R119: CRC_CALC starts from 0xFFFF, CRC_UPDATE from CRC_ARG, which it does not write. -/
def Obligations.CrcCalcAndUpdateGiveCrcOfInput : Prop :=
  ∀ s : State,
    (s.inLen.toNat ≤ 256 →
      (∃ t : State, exec .crcCalc s = .next t ∧ Succeeded s t false ∧
        t.crcRes = .value (crc16Update 0xFFFF s.input) ∧ t.outLen = 0) ∧
      (∃ t : State, exec .crcUpdate s = .next t ∧ Succeeded s t false ∧
        t.crcRes = .value (crc16Update s.crcArg s.input) ∧ t.outLen = 0 ∧ t.crcArg = s.crcArg)) ∧
    (256 < s.inLen.toNat →
      (∃ t : State, exec .crcCalc s = .next t ∧ FailedWith s t .oversize ∧ t.crcRes = .unspecified) ∧
      (∃ t : State, exec .crcUpdate s = .next t ∧ FailedWith s t .oversize ∧ t.crcRes = .unspecified))

/-- R120: CRC_VERIFY. A mismatch is no error. -/
def Obligations.CrcVerifyComparesWithArgument : Prop :=
  ∀ s : State,
    (s.inLen.toNat ≤ 256 → ∃ t : State, exec .crcVerify s = .next t ∧
      Succeeded s t (decide (crc16Calculate s.input = s.crcArg)) ∧
      t.crcRes = .value (crc16Calculate s.input) ∧ t.outLen = 0) ∧
    (256 < s.inLen.toNat → ∃ t : State, exec .crcVerify s = .next t ∧ FailedWith s t .oversize ∧
      t.crcRes = .unspecified)

/-- R121, R113: CRC_APPEND. -/
def Obligations.CrcAppendPutsCrcLowByteFirst : Prop :=
  ∀ s : State,
    (s.inLen.toNat ≤ 254 → ∃ t : State, exec .crcAppend s = .next t ∧ Succeeded s t false ∧
      OutHolds t (s.input ++ [(crc16Calculate s.input).extractLsb' 0 8, (crc16Calculate s.input).extractLsb' 8 8]) ∧
      t.crcRes = .value (crc16Calculate s.input)) ∧
    (254 < s.inLen.toNat → ∃ t : State, exec .crcAppend s = .next t ∧ FailedWith s t .oversize ∧
      t.crcRes = .unspecified)

/-- R122, R114: CRC_CHECK_STRIP succeeds exactly on a data sequence followed by its own CRC, low byte first. -/
def Obligations.CrcCheckStripAcceptsOnlyOwnCrc : Prop :=
  ∀ s : State,
    (∀ d, s.inLen.toNat ≤ 256 → s.input = crc16Append d →
      ∃ t : State, exec .crcCheckStrip s = .next t ∧ Succeeded s t false ∧ OutHolds t d ∧
        t.crcRes = .value (crc16Calculate d)) ∧
    (s.inLen.toNat ≤ 256 → (∀ d, s.input ≠ crc16Append d) →
      ∃ t : State, exec .crcCheckStrip s = .next t ∧ FailedWith s t .checksumMismatch ∧ t.crcRes = .unspecified) ∧
    (256 < s.inLen.toNat →
      ∃ t : State, exec .crcCheckStrip s = .next t ∧ FailedWith s t .oversize ∧ t.crcRes = .unspecified)

/-- R115, R111: the CRC can be computed in chunks, and the CRC of nothing is the initial value. -/
def Obligations.CrcIsIncremental : Prop :=
  (∀ (c : Word16) (a b : Bytes), crc16Update (crc16Update c a) b = crc16Update c (a ++ b)) ∧
  (∀ a b : Bytes, crc16Update (crc16Update 0xFFFF a) b = crc16Calculate (a ++ b)) ∧
  (∀ c : Word16, crc16Update c [] = c)

/-- R110: the byte-wise CRC is the shift register that takes one input bit at a time, most-significant bit first, with
no reflection and no final XOR; and the source's check value. -/
def Obligations.CrcIsShiftRegisterOverBits : Prop :=
  (∀ (c : Word16) (d : Bytes), crc16Update c d = (d.flatMap bitsMsbFirst).foldl crcShift c) ∧
  crc16Calculate [0x31, 0x32, 0x33, 0x34, 0x35, 0x36, 0x37, 0x38, 0x39] = 0x29B1

/-- R116: what append adds, check-and-strip removes; and it detects a change of any single byte. -/
def Obligations.CrcDetectsEverySingleByteChange : Prop :=
  ∀ d : Bytes,
    crc16CheckAndStrip (crc16Append d) = .ok (d, crc16Calculate d) ∧
    ∀ (k : Nat) (b : Byte) (h : k < (crc16Append d).length), b ≠ (crc16Append d)[k] →
      crc16CheckAndStrip ((crc16Append d).set k b) = .error .checksumMismatch

/-! ## COBS (41_cobs.md) -/

/-- R148: COBS_ENCODE. -/
def Obligations.CobsEncodeCommandGivesEncoding : Prop :=
  ∀ s : State,
    (s.inLen.toNat ≤ 250 → ∃ (t : State) (r : Bytes), exec .cobsEncode s = .next t ∧ Succeeded s t false ∧
      cobsEncode s.input = .ok r ∧ OutHolds t r ∧ r.length = s.inLen.toNat + 1) ∧
    (250 < s.inLen.toNat → ∃ t : State, exec .cobsEncode s = .next t ∧ FailedWith s t .oversize)

/-- R149: COBS_DECODE. -/
def Obligations.CobsDecodeCommandGivesDecoding : Prop :=
  ∀ s : State,
    (∀ r, s.inLen.toNat ≤ 256 → cobsDecode s.config.strictZero s.input = .ok r →
      ∃ t : State, exec .cobsDecode s = .next t ∧ Succeeded s t false ∧ OutHolds t r) ∧
    (∀ e, s.inLen.toNat ≤ 256 → cobsDecode s.config.strictZero s.input = .error e →
      ∃ t : State, exec .cobsDecode s = .next t ∧ FailedWith s t e) ∧
    (256 < s.inLen.toNat → ∃ t : State, exec .cobsDecode s = .next t ∧ FailedWith s t .oversize)

/-- R150, R146: COBS_FRAME. -/
def Obligations.CobsFrameCommandAppendsDelimiter : Prop :=
  ∀ s : State,
    (s.inLen.toNat ≤ 250 → ∃ (t : State) (r : Bytes), exec .cobsFrame s = .next t ∧ Succeeded s t false ∧
      cobsEncode s.input = .ok r ∧ OutHolds t (r ++ [0x00]) ∧ t.outLen.toNat = s.inLen.toNat + 2) ∧
    (250 < s.inLen.toNat → ∃ t : State, exec .cobsFrame s = .next t ∧ FailedWith s t .oversize)

/-- R151, R147: COBS_UNFRAME, and the function of R147 that RX_FRAME runs too. -/
def Obligations.CobsUnframeCommandNeedsDelimiter : Prop :=
  ∀ s : State,
    (∀ e r, s.inLen.toNat ≤ 256 → s.input = e ++ [0x00] → cobsDecode s.config.strictZero e = .ok r →
      ∃ t : State, exec .cobsUnframe s = .next t ∧ Succeeded s t false ∧ OutHolds t r) ∧
    (∀ e c, s.inLen.toNat ≤ 256 → s.input = e ++ [0x00] → cobsDecode s.config.strictZero e = .error c →
      ∃ t : State, exec .cobsUnframe s = .next t ∧ FailedWith s t c) ∧
    (s.inLen.toNat ≤ 256 → (∀ e, s.input ≠ e ++ [0x00]) →
      ∃ t : State, exec .cobsUnframe s = .next t ∧ FailedWith s t .missingDelimiter) ∧
    (256 < s.inLen.toNat → ∃ t : State, exec .cobsUnframe s = .next t ∧ FailedWith s t .oversize) ∧
    (∀ (strict : Bool) (f : Bytes),
      (∀ e, f = e ++ [0x00] → cobsUnframe strict f = cobsDecode strict e) ∧
      ((∀ e, f ≠ e ++ [0x00]) → cobsUnframe strict f = .error .missingDelimiter))

/-- R140, R142: a byte sequence decodes exactly when it is a run of blocks, and decodes to their data with the implied
zeros: one after every block with code below 0xFF that is not the last. -/
def Obligations.CobsDecodeJoinsBlocks : Prop :=
  ∀ (strict : Bool) (e r : Bytes), cobsDecode strict e = .ok r ↔
    ∃ ds : List Bytes, (∀ d ∈ ds, d.length ≤ 254 ∧ (strict = true → (0x00 : Byte) ∉ d)) ∧
      e = cobsBlocks ds ∧ r = cobsJoin ds

/-- R142: after any run of whole blocks, a zero at a code position, a block that runs past the end, and (under
P_STRICT_ZERO) a zero at a data position are the errors the walk meets there. -/
def Obligations.CobsDecodeReportsFirstFault : Prop :=
  ∀ (strict : Bool) (ds : List Bytes), (∀ d ∈ ds, d.length ≤ 254 ∧ (strict = true → (0x00 : Byte) ∉ d)) →
    (∀ rest, cobsDecode strict (cobsBlocks ds ++ 0x00 :: rest) = .error .cobsZeroCode) ∧
    (∀ (code : Byte) (data : Bytes), data.length + 1 < code.toNat → (strict = true → (0x00 : Byte) ∉ data) →
      cobsDecode strict (cobsBlocks ds ++ code :: data) = .error .cobsOverrun) ∧
    (∀ (code : Byte) (data rest : Bytes), strict = true → data.length + 1 < code.toNat → (0x00 : Byte) ∉ data →
      cobsDecode strict (cobsBlocks ds ++ code :: (data ++ 0x00 :: rest)) = .error .cobsDataZero)

/-- R140, R141, R143, R144: the encoding of at most 250 bytes is a run of zero-free blocks of at most 250 data bytes
(codes 0x01 to 0xFB), the input being their data with a zero between each two; it has one byte more than the input and
no zero byte. A longer input is OVERSIZE. -/
def Obligations.CobsEncodeIsZeroFreeBlocks : Prop :=
  ∀ x : Bytes,
    (x.length ≤ 250 → ∃ ds : List Bytes, ds ≠ [] ∧ cobsEncode x = .ok (cobsBlocks ds) ∧
      (∀ d ∈ ds, d.length ≤ 250 ∧ (0x00 : Byte) ∉ d) ∧ x = List.intercalate [0x00] ds ∧
      (cobsBlocks ds).length = x.length + 1 ∧ (0x00 : Byte) ∉ cobsBlocks ds) ∧
    (250 < x.length → cobsEncode x = .error .oversize)

/-- R145: decoding undoes encoding, and unframing undoes framing, under both values of P_STRICT_ZERO. -/
def Obligations.CobsRoundTrip : Prop :=
  ∀ (strict : Bool) (x : Bytes), x.length ≤ 250 →
    ∃ r f : Bytes, cobsEncode x = .ok r ∧ cobsDecode strict r = .ok x ∧
      cobsFrame x = .ok f ∧ cobsUnframe strict f = .ok x

/-- R152: a decoded sequence is shorter than the encoded one. -/
def Obligations.CobsDecodedLengthIsSmaller : Prop :=
  ∀ (strict : Bool) (e r : Bytes), cobsDecode strict e = .ok r →
    (e = [] → r = []) ∧ (e ≠ [] → r.length ≤ e.length - 1)

/-! ## Messages (42_message.md) -/

/-- R177, R170: MSG_PACK. -/
def Obligations.MsgPackPutsHeaderBeforePayload : Prop :=
  ∀ s : State,
    (s.inLen.toNat ≤ 250 → ∃ t : State, exec .msgPack s = .next t ∧ Succeeded s t false ∧
      OutHolds t (s.msgId :: s.inLen.setWidth 8 :: s.input)) ∧
    (250 < s.inLen.toNat → ∃ t : State, exec .msgPack s = .next t ∧ FailedWith s t .oversize)

/-- R178, R171: MSG_UNPACK, its errors in their order, and no check that the declared length is at most 250; and the
function of R171 that RX_FRAME runs too. -/
def Obligations.MsgUnpackTakesDeclaredLength : Prop :=
  ∀ s : State,
    (256 < s.inLen.toNat → ∃ t : State, exec .msgUnpack s = .next t ∧ FailedWith s t .oversize) ∧
    (s.inLen.toNat < 2 → ∃ t : State, exec .msgUnpack s = .next t ∧ FailedWith s t .msgTooShort) ∧
    (∀ (id len : Byte) (rest : Bytes), s.inLen.toNat ≤ 256 → s.input = id :: len :: rest →
      (rest.length < len.toNat → ∃ t : State, exec .msgUnpack s = .next t ∧ FailedWith s t .msgTruncated) ∧
      (len.toNat < rest.length → s.config.rejectTrailing = true →
        ∃ t : State, exec .msgUnpack s = .next t ∧ FailedWith s t .msgTrailing) ∧
      (len.toNat ≤ rest.length → (s.config.rejectTrailing = true → len.toNat = rest.length) →
        ∃ t : State, exec .msgUnpack s = .next t ∧ Succeeded s t false ∧ t.resId = .value id ∧
          t.resLen = .value len ∧ OutHolds t (rest.take len.toNat))) ∧
    (∀ (reject : Bool) (b : Bytes), b.length < 2 → msgUnpack reject b = .error .msgTooShort) ∧
    (∀ (reject : Bool) (id len : Byte) (rest : Bytes),
      (rest.length < len.toNat → msgUnpack reject (id :: len :: rest) = .error .msgTruncated) ∧
      (len.toNat < rest.length → reject = true → msgUnpack reject (id :: len :: rest) = .error .msgTrailing) ∧
      (len.toNat ≤ rest.length → (reject = true → len.toNat = rest.length) →
        msgUnpack reject (id :: len :: rest) = .ok { id := id, length := len, payload := rest.take len.toNat }))

/-- R179, R180, R181, R172, R173, R174, R176: the three message-id commands, whatever IN_LEN is, and the response-bit
algebra. -/
def Obligations.MessageIdCommandsReadMsgIdAlone : Prop :=
  ∀ s : State,
    (∃ t : State, exec .msgIsResponse s = .next t ∧ Succeeded s t (s.msgId.getLsbD 7) ∧ t.outLen = 0) ∧
    (∃ t : State, exec .msgGetRequestId s = .next t ∧ Succeeded s t false ∧
      t.resId = .value (s.msgId &&& 0x7F) ∧ t.outLen = 0) ∧
    (∃ (t : State) (g : Byte), exec .msgClassify s = .next t ∧ Succeeded s t (s.msgId.getLsbD 7) ∧
      t.resId = .value g ∧ t.outLen = 0 ∧
      ((s.msgId &&& 0x7F).toNat ≤ 0x0F → g = 0) ∧
      (0x10 ≤ (s.msgId &&& 0x7F).toNat → (s.msgId &&& 0x7F).toNat ≤ 0x2F → g = 1) ∧
      (0x30 ≤ (s.msgId &&& 0x7F).toNat → (s.msgId &&& 0x7F).toNat ≤ 0x3F → g = 2) ∧
      (0x40 ≤ (s.msgId &&& 0x7F).toNat → (s.msgId &&& 0x7F).toNat ≤ 0x4F → g = 3) ∧
      (0x50 ≤ (s.msgId &&& 0x7F).toNat → g = 4)) ∧
    (∀ r : Byte, r.toNat ≤ 0x7F →
      msgIsResponse (r ||| 0x80) = true ∧ msgRequestId (r ||| 0x80) = r ∧
      msgIsResponse r = false ∧ msgRequestId r = r ∧ msgGroup (r ||| 0x80) = msgGroup r)

/-- R175: unpacking undoes packing, under both values of P_REJECT_TRAILING. -/
def Obligations.MsgUnpackInvertsPack : Prop :=
  ∀ (reject : Bool) (id : Byte) (p : Bytes), p.length ≤ 250 →
    ∃ m : Bytes, msgPack id p = .ok m ∧
      msgUnpack reject m = .ok { id := id, length := BitVec.ofNat 8 p.length, payload := p }

/-! ## Typed structures (43_struct.md) -/

/-- R207: STRUCT_PACK packs `[FIELD[0], ..., FIELD[k-1]]`, the values of as many FIELD registers as the layout has
fields. -/
def Obligations.StructPackCommandPacksFields : Prop :=
  ∀ s : State,
    (s.selectedLayout = none → ∃ t : State, exec .structPack s = .next t ∧ FailedWith s t .badLayout) ∧
    (∀ l : Layout, s.selectedLayout = some l → (s.fieldValues.take l.fields.length).length = l.fields.length) ∧
    (∀ l b, s.selectedLayout = some l → structPack l (s.fieldValues.take l.fields.length) = .ok b →
      ∃ t : State, exec .structPack s = .next t ∧ Succeeded s t false ∧ OutHolds t b ∧
        b.length = fieldsWidth l.fields) ∧
    (∀ l e, s.selectedLayout = some l → structPack l (s.fieldValues.take l.fields.length) = .error e →
      ∃ t : State, exec .structPack s = .next t ∧ FailedWith s t e)

/-- R208: STRUCT_UNPACK. -/
def Obligations.StructUnpackCommandWritesFields : Prop :=
  ∀ s : State,
    (256 < s.inLen.toNat → ∃ t : State, exec .structUnpack s = .next t ∧ FailedWith s t .oversize) ∧
    (s.inLen.toNat ≤ 256 → s.selectedLayout = none →
      ∃ t : State, exec .structUnpack s = .next t ∧ FailedWith s t .badLayout) ∧
    (∀ l vs, s.inLen.toNat ≤ 256 → s.selectedLayout = some l → structUnpack l s.input = .ok vs →
      ∃ t : State, exec .structUnpack s = .next t ∧ Succeeded s t false ∧ t.outLen = 0 ∧
        vs.length = l.fields.length ∧
        ∀ j : Fin 16,
          (∀ v, vs[j.val]? = some v →
            t.fields[j] = { lo := .value (v.extractLsb' 0 32), hi := .value (v.extractLsb' 32 32) }) ∧
          (vs.length ≤ j.val → t.fields[j] = s.fields[j])) ∧
    (∀ l e, s.inLen.toNat ≤ 256 → s.selectedLayout = some l → structUnpack l s.input = .error e →
      ∃ t : State, exec .structUnpack s = .next t ∧ FailedWith s t e)

/-- R206: the inverse laws of pack and unpack. Values beyond the layout's fields do not matter to pack (R204 runs over
the layout's fields), as bytes beyond its width do not to unpack. -/
def Obligations.StructPackAndUnpackAreInverse : Prop :=
  ∀ l : Layout,
    (∀ (vs : List Word64) (b : Bytes), l.fields.length ≤ vs.length → structPack l vs = .ok b →
      structUnpack l b = .ok (vs.take l.fields.length)) ∧
    (∀ (vs : List Word64) (b : Bytes), structUnpack l b = .ok vs →
      structPack l vs = .ok (b.take (fieldsWidth l.fields))) ∧
    (∀ b x : Bytes, fieldsWidth l.fields ≤ b.length → structUnpack l (b ++ x) = structUnpack l b)

/-- R204, R202, R203, R255 (5): pack, given a value for every field (and perhaps more), gives the error of the first
field that fails, its range checked before its membership; it succeeds when no field fails. -/
def Obligations.StructPackReportsFirstFailingField : Prop :=
  ∀ (l : Layout) (vs : List Word64), l.fields.length ≤ vs.length →
    (∀ (k : Nat) (f : FieldDesc) (v : Word64), l.fields[k]? = some f → vs[k]? = some v →
      (∀ (j : Nat) (g : FieldDesc) (u : Word64), j < k → l.fields[j]? = some g → vs[j]? = some u →
        fieldFits g u = true ∧ fieldMember g (u.setWidth (8 * g.width.bytes)) = true) →
      (fieldFits f v = false → structPack l vs = .error .fieldRange) ∧
      (fieldFits f v = true → fieldMember f (v.setWidth (8 * f.width.bytes)) = false →
        structPack l vs = .error .enumUnknown)) ∧
    ((∀ (j : Nat) (g : FieldDesc) (u : Word64), l.fields[j]? = some g → vs[j]? = some u →
        fieldFits g u = true ∧ fieldMember g (u.setWidth (8 * g.width.bytes)) = true) →
      ∃ b : Bytes, structPack l vs = .ok b)

/-- R205, R201: unpack reads field `k` at the offset that is the width of the fields before it, little-endian, checks
that it is a member, and widens it by its sign. Fewer than N bytes are STRUCT_TOO_SHORT; with N bytes a field that is no
member is ENUM_UNKNOWN, and if every field is a member unpack succeeds. -/
def Obligations.StructUnpackReadsFieldsInPlace : Prop :=
  ∀ (l : Layout) (b : Bytes),
    (b.length < fieldsWidth l.fields → structUnpack l b = .error .structTooShort) ∧
    (fieldsWidth l.fields ≤ b.length →
      (∀ (k : Nat) (f : FieldDesc), l.fields[k]? = some f → fieldMember f (rawField l b k f) = false →
        structUnpack l b = .error .enumUnknown) ∧
      ((∀ (k : Nat) (f : FieldDesc), l.fields[k]? = some f → fieldMember f (rawField l b k f) = true) →
        ∃ vs : List Word64, structUnpack l b = .ok vs)) ∧
    (∀ vs, structUnpack l b = .ok vs → vs.length = l.fields.length ∧
      ∀ (k : Nat) (f : FieldDesc), l.fields[k]? = some f →
        fieldMember f (rawField l b k f) = true ∧
          vs[k]? = some (if f.signed then (rawField l b k f).signExtend 64 else (rawField l b k f).setWidth 64))

/-- R202, R12, R203: a value fits a field exactly when truncating it to the field and widening it back gives it; an
8-byte field fits every value. Every raw value is a member of an INT field, exactly those in S of an ENUM(S) field, and
exactly those with no bit outside M of a FLAGS(M) field. -/
def Obligations.FieldFitsWhenNothingIsLost : Prop :=
  ∀ (f : FieldDesc) (v : Word64),
    (fieldFits f v = true ↔
      (if f.signed then (v.setWidth (8 * f.width.bytes)).signExtend 64
        else (v.setWidth (8 * f.width.bytes)).setWidth 64) = v) ∧
    (f.width = .eight → fieldFits f v = true) ∧
    (∀ raw : BitVec (8 * f.width.bytes),
      (f.kind = .int → fieldMember f raw = true) ∧
      (∀ S, f.kind = .enum S → (fieldMember f raw = true ↔ raw ∈ S)) ∧
      (∀ M, f.kind = .flags M → (fieldMember f raw = true ↔ raw &&& ~~~M = 0)))

/-! ## Frames (44_pipeline.md) -/

/-- R234, R230: TX_FRAME puts out the encoding of the message and its CRC, and the delimiter. -/
def Obligations.TxFrameCommandBuildsFrame : Prop :=
  ∀ s : State,
    (s.inLen.toNat ≤ 246 → ∃ (t : State) (r : Bytes), exec .txFrame s = .next t ∧ Succeeded s t false ∧
      cobsEncode (crc16Append (s.msgId :: s.inLen.setWidth 8 :: s.input)) = .ok r ∧ OutHolds t (r ++ [0x00]) ∧
      t.outLen.toNat = s.inLen.toNat + 6 ∧
      t.crcRes = .value (crc16Calculate (s.msgId :: s.inLen.setWidth 8 :: s.input))) ∧
    (246 < s.inLen.toNat → ∃ t : State, exec .txFrame s = .next t ∧ FailedWith s t .oversize ∧
      t.crcRes = .unspecified)

/-- R235, R231: RX_FRAME, stage by stage: the first stage that fails gives the error, and no later one is run. -/
def Obligations.RxFrameCommandRunsStagesInOrder : Prop :=
  ∀ s : State,
    (256 < s.inLen.toNat → ∃ t : State, exec .rxFrame s = .next t ∧ FailedWith s t .oversize) ∧
    (s.inLen.toNat ≤ 256 →
      (∀ e, cobsUnframe s.config.strictZero s.input = .error e →
        ∃ t : State, exec .rxFrame s = .next t ∧ FailedWith s t e) ∧
      (∀ u, cobsUnframe s.config.strictZero s.input = .ok u → (∀ d, u ≠ crc16Append d) →
        ∃ t : State, exec .rxFrame s = .next t ∧ FailedWith s t .checksumMismatch) ∧
      (∀ d e, cobsUnframe s.config.strictZero s.input = .ok (crc16Append d) →
        msgUnpack s.config.rejectTrailing d = .error e →
        ∃ t : State, exec .rxFrame s = .next t ∧ FailedWith s t e) ∧
      (∀ d m, cobsUnframe s.config.strictZero s.input = .ok (crc16Append d) →
        msgUnpack s.config.rejectTrailing d = .ok m →
        ∃ t : State, exec .rxFrame s = .next t ∧ Succeeded s t false ∧ t.resId = .value m.id ∧
          t.resLen = .value m.length ∧ OutHolds t m.payload ∧ t.crcRes = .value (crc16Calculate d)))

/-- R232, R233: a frame can be built exactly for payloads of at most 246 bytes; from 247 to 250 the message packs and
the frame stage fails with OVERSIZE. A frame has `len(p) + 6` bytes, at most 252, and its last byte is its only zero. -/
def Obligations.FrameLimitLengthAndOnlyZero : Prop :=
  ∀ (id : Byte) (p : Bytes),
    ((∃ r, txFrame id p = .ok r) ↔ p.length ≤ 246) ∧
    (246 < p.length → p.length ≤ 250 → ∃ m : Bytes, msgPack id p = .ok m ∧
      cobsFrame (crc16Append m) = .error .oversize ∧ txFrame id p = .error .oversize) ∧
    (∀ f c, txFrame id p = .ok (f, c) →
      f.length = p.length + 6 ∧ f.length ≤ 252 ∧ ∃ body : Bytes, f = body ++ [0x00] ∧ (0x00 : Byte) ∉ body)

/-- R236: receiving undoes sending, under every value of the two policy flags. -/
def Obligations.FrameRoundTrip : Prop :=
  ∀ (strict reject : Bool) (id : Byte) (p f : Bytes) (c : Word16), txFrame id p = .ok (f, c) →
    rxFrame strict reject f = .ok ({ id := id, length := BitVec.ofNat 8 p.length, payload := p }, c)

/-- R236, R234, R235, R290: the frame one block sends, copied into the IN of any block whatever its configuration, is
received there: the same id, payload and CRC. -/
def Obligations.FrameTravelsBetweenBlocks : Prop :=
  ∀ (s t u : State) (f : Bytes), s.inLen.toNat ≤ 246 → exec .txFrame s = .next t → OutHolds t f → InHolds u f →
    ∃ v : State, exec .rxFrame u = .next v ∧ Succeeded u v false ∧ v.resId = .value s.msgId ∧
      v.resLen = .value (s.inLen.setWidth 8) ∧ OutHolds v s.input ∧ v.crcRes = t.crcRes

/-! ## The bus (20_memory.md) -/

/-- R60, R63, R64, R65, R68, R70, R73: an access gets OK exactly when it is aligned, of an allowed width and at an
offset that holds something; every other gets ERROR, with data 0, and changes nothing of the block. No legal buffer
access crosses the buffer's end. A read, legal or not, changes nothing of the block: its response is given and its
draws are counted (log 3, 8). -/
def Obligations.BusErrorsAndReadsChangeNothing : Prop :=
  ∀ (s : State) (off : BitVec 12) (w : AccessWidth) (v : Word32),
    (LegalAccess off.toNat w → (s.readResponse off w).status = .ok ∧
      (s.memWrite off w v).responses = { status := .ok, data := 0 } :: s.responses) ∧
    (¬LegalAccess off.toNat w →
      s.memRead off w = { s with responses := { status := .error, data := 0 } :: s.responses } ∧
      s.memWrite off w v = { s with responses := { status := .error, data := 0 } :: s.responses }) ∧
    (LegalAccess off.toNat w → 0x100 ≤ off.toNat →
      (off.toNat + w.bytes ≤ 0x200 ∨ (0x200 ≤ off.toNat ∧ off.toNat + w.bytes ≤ 0x300))) ∧
    (LegalAccess off.toNat w →
      s.memRead off w = { s with responses := s.readResponse off w :: s.responses, draws := s.draws + 1 })

/-- R285, R25, R69: while busy, a write to an operand register or IN is dropped and sets HAZ, whether or not the running
command reads it; a STATUS write is not dropped; a write to read-only state is ignored, busy or not, and does not set
HAZ. The recorded response is the model's (log 8). -/
def Obligations.WritesWhileBusyAreDropped : Prop :=
  ∀ (s : State) (off : BitVec 12) (w : AccessWidth) (v : Word32),
    (s.status.busy = true → StoresOperand off.toNat w →
      s.memWrite off w v = { s with
        status := { s.status with haz := true }
        responses := { status := .ok, data := 0 } :: s.responses }) ∧
    s.memWrite 0x004 .word v = { s with
      status := { s.status with haz := s.status.haz && !v.getLsbD 3 }
      responses := { status := .ok, data := 0 } :: s.responses } ∧
    (StoresReadOnly off.toNat w →
      s.memWrite off w v = { s with responses := { status := .ok, data := 0 } :: s.responses })

/-- R23, R69: the bits outside a register's implemented bits read as 0 and ignore writes. That they read as 0 also where
R287 makes a busy read unspecified is the model's choice (log 12). -/
def Obligations.ReservedBitsReadZeroAndIgnoreWrites : Prop :=
  ∀ (s : State) (off : BitVec 12) (v v' : Word32), LegalAccess off.toNat .word → off.toNat < 0x100 →
    (s.readResponse off .word).data &&& ~~~readMask off.toNat = 0 ∧
    (v &&& writeMask off.toNat = v' &&& writeMask off.toNat →
      s.memWrite off .word v = s.memWrite off .word v')

/-- R61 (a), R31, R33, R35, R38: an idle block stores the implemented bits of a write to IN_LEN, CRC_ARG, MSG_ID or
LAYOUT and changes nothing else; at any time a read of one gives what it holds. The recorded response is the model's
(log 8). -/
def Obligations.OperandRegistersStoreAndRead : Prop :=
  ∀ (s : State) (v : Word32),
    (s.status.busy = false →
      s.memWrite 0x008 .word v = { s with
        inLen := v.setWidth 9, responses := { status := .ok, data := 0 } :: s.responses } ∧
      s.memWrite 0x010 .word v = { s with
        crcArg := v.setWidth 16, responses := { status := .ok, data := 0 } :: s.responses } ∧
      s.memWrite 0x018 .word v = { s with
        msgId := v.setWidth 8, responses := { status := .ok, data := 0 } :: s.responses } ∧
      s.memWrite 0x024 .word v = { s with
        layout := v.setWidth 4, responses := { status := .ok, data := 0 } :: s.responses }) ∧
    s.readResponse 0x008 .word = { status := .ok, data := s.inLen.setWidth 32 } ∧
    s.readResponse 0x010 .word = { status := .ok, data := s.crcArg.setWidth 32 } ∧
    s.readResponse 0x018 .word = { status := .ok, data := s.msgId.setWidth 32 } ∧
    s.readResponse 0x024 .word = { status := .ok, data := s.layout.setWidth 32 }

/-- R67, R39: on an idle block a write to one half of FIELD[j] leaves the other half, the other FIELD registers and
everything else alone, and each half reads back. The recorded response is the model's (log 8). -/
def Obligations.FieldHalvesAreSeparate : Prop :=
  ∀ (s : State) (j : Fin 16) (v : Word32), s.status.busy = false →
    (∃ t : State, s.memWrite (BitVec.ofNat 12 (0x080 + 8 * j.val)) .word v = t ∧
      t.fields[j] = { lo := .value v, hi := s.fields[j].hi } ∧
      (∀ k : Fin 16, k ≠ j → t.fields[k] = s.fields[k]) ∧
      t = { s with fields := t.fields, responses := t.responses } ∧
      t.readResponse (BitVec.ofNat 12 (0x080 + 8 * j.val)) .word = { status := .ok, data := v }) ∧
    (∃ t : State, s.memWrite (BitVec.ofNat 12 (0x084 + 8 * j.val)) .word v = t ∧
      t.fields[j] = { lo := s.fields[j].lo, hi := .value v } ∧
      (∀ k : Fin 16, k ≠ j → t.fields[k] = s.fields[k]) ∧
      t = { s with fields := t.fields, responses := t.responses } ∧
      t.readResponse (BitVec.ofNat 12 (0x084 + 8 * j.val)) .word = { status := .ok, data := v })

/-- R66, R41, R287: the bus is little-endian. Byte `j` of a read of IN, or of OUT where the running command does not
write it, is bits [8j+7:8j] of its data, busy or not: the byte held, or the free draw of that read where the byte is
unspecified (R13; log 3). On an idle block a write of IN stores bits [8j+7:8j] at offset + `j`, and changes no other
byte and nothing else. The width a read's data is extended to is the model's (log 8). -/
def Obligations.BufferAccessIsLittleEndian : Prop :=
  ∀ (s : State) (off : BitVec 12) (w : AccessWidth) (v : Word32), LegalAccess off.toNat w → 0x100 ≤ off.toNat →
    (off.toNat < 0x200 ∨ ¬RunningWrites s (fun i => writesOut i = true) →
      ∀ j < w.bytes,
        (∀ b, s.mem.read? (off.toNat + j) = some b → (s.readResponse off w).data.extractLsb' (8 * j) 8 = b) ∧
        (s.mem.read? (off.toNat + j) = none →
          (s.readResponse off w).data.extractLsb' (8 * j) 8 = Config.unspecified 8 s.draws (off.toNat + j))) ∧
    (s.readResponse off w).data.toNat < 2 ^ (8 * w.bytes) ∧
    (s.status.busy = false → off.toNat < 0x200 →
      ∃ t : State, s.memWrite off w v = t ∧ t = { s with mem := t.mem, responses := t.responses } ∧
        (∀ j < w.bytes, t.mem.read? (off.toNat + j) = some (v.extractLsb' (8 * j) 8)) ∧
        (∀ a, a < off.toNat ∨ off.toNat + w.bytes ≤ a → t.mem.read? a = s.mem.read? a))

/-- R287, R252, R94: while busy, a read of a member of the running command's output set gives an unspecified value, the
free draw of that read (any value; log 3, 12): OUT_LEN whatever the latched opcode is, a reserved one too, and for an
assigned one the results, FIELD halves and bytes of OUT it writes, OUT under every access width. -/
def Obligations.BusyReadsOfOutputSetAreFree : Prop :=
  ∀ s : State,
    (s.status.busy = true →
      (s.readResponse 0x00C .word).data = (Config.unspecified 9 s.draws 0x00C).setWidth 32) ∧
    (RunningWrites s (fun i => writesCrcRes i = true) →
      (s.readResponse 0x014 .word).data = (Config.unspecified 16 s.draws 0x014).setWidth 32) ∧
    (RunningWrites s (fun i => writesResId i = true) →
      (s.readResponse 0x01C .word).data = (Config.unspecified 8 s.draws 0x01C).setWidth 32) ∧
    (RunningWrites s (fun i => writesResLen i = true) →
      (s.readResponse 0x020 .word).data = (Config.unspecified 8 s.draws 0x020).setWidth 32) ∧
    (∀ j : Fin 16, RunningWrites s (fun i => WritesField i s j) →
      (s.readResponse (BitVec.ofNat 12 (0x080 + 8 * j.val)) .word).data =
        Config.unspecified 32 s.draws (0x080 + 8 * j.val) ∧
      (s.readResponse (BitVec.ofNat 12 (0x084 + 8 * j.val)) .word).data =
        Config.unspecified 32 s.draws (0x084 + 8 * j.val)) ∧
    (RunningWrites s (fun i => writesOut i = true) →
      ∀ (off : BitVec 12) (w : AccessWidth), LegalAccess off.toNat w → 0x200 ≤ off.toNat →
        (∀ j < w.bytes,
          (s.readResponse off w).data.extractLsb' (8 * j) 8 = Config.unspecified 8 s.draws (off.toNat + j)) ∧
        (s.readResponse off w).data.toNat < 2 ^ (8 * w.bytes))

/-- R25, R13, R76, R287: STATUS, at any time, reads its fields in their bits and 0 in every other; while a command runs
that is BUSY = 1, the current HAZ and 0 elsewhere. A read of what is not in the output set of a running command gives
what is held: always on an idle block, while busy everything outside the output set, and everything but OUT_LEN under a
reserved opcode. Where what is held is unspecified (R254, or a byte never written) it gives the free draw of that read
(log 3). The zero extension of byte reads is the model's (log 8); wider buffer reads are in
BufferAccessIsLittleEndian. -/
def Obligations.OtherReadsGiveHeldValues : Prop :=
  ∀ s : State,
    ((s.readResponse 0x004 .word).data.getLsbD 0 = s.status.busy ∧
      (s.readResponse 0x004 .word).data.getLsbD 1 = s.status.done ∧
      (s.readResponse 0x004 .word).data.getLsbD 2 = s.status.bool ∧
      (s.readResponse 0x004 .word).data.getLsbD 3 = s.status.haz ∧
      (s.readResponse 0x004 .word).data.extractLsb' 4 4 = 0 ∧
      (s.readResponse 0x004 .word).data.extractLsb' 8 4 = s.status.err ∧
      (s.readResponse 0x004 .word).data.extractLsb' 12 20 = 0) ∧
    (BlockInvariant s → s.status.busy = true →
      (s.readResponse 0x004 .word).data = if s.status.haz then 0x00000009 else 0x00000001) ∧
    (s.status.busy = false → (s.readResponse 0x00C .word).data = s.outLen.setWidth 32) ∧
    (¬RunningWrites s (fun i => writesCrcRes i = true) →
      (∀ v, s.crcRes = .value v → (s.readResponse 0x014 .word).data = v.setWidth 32) ∧
      (s.crcRes = .unspecified →
        (s.readResponse 0x014 .word).data = (Config.unspecified 16 s.draws 0x014).setWidth 32)) ∧
    (¬RunningWrites s (fun i => writesResId i = true) →
      (∀ v, s.resId = .value v → (s.readResponse 0x01C .word).data = v.setWidth 32) ∧
      (s.resId = .unspecified →
        (s.readResponse 0x01C .word).data = (Config.unspecified 8 s.draws 0x01C).setWidth 32)) ∧
    (¬RunningWrites s (fun i => writesResLen i = true) →
      (∀ v, s.resLen = .value v → (s.readResponse 0x020 .word).data = v.setWidth 32) ∧
      (s.resLen = .unspecified →
        (s.readResponse 0x020 .word).data = (Config.unspecified 8 s.draws 0x020).setWidth 32)) ∧
    (∀ j : Fin 16, ¬RunningWrites s (fun i => WritesField i s j) →
      (∀ v, s.fields[j].lo = .value v →
        (s.readResponse (BitVec.ofNat 12 (0x080 + 8 * j.val)) .word).data = v) ∧
      (s.fields[j].lo = .unspecified →
        (s.readResponse (BitVec.ofNat 12 (0x080 + 8 * j.val)) .word).data =
          Config.unspecified 32 s.draws (0x080 + 8 * j.val)) ∧
      (∀ v, s.fields[j].hi = .value v →
        (s.readResponse (BitVec.ofNat 12 (0x084 + 8 * j.val)) .word).data = v) ∧
      (s.fields[j].hi = .unspecified →
        (s.readResponse (BitVec.ofNat 12 (0x084 + 8 * j.val)) .word).data =
          Config.unspecified 32 s.draws (0x084 + 8 * j.val))) ∧
    (∀ a, (0x100 ≤ a ∧ a < 0x200) ∨ (0x200 ≤ a ∧ a < 0x300 ∧ ¬RunningWrites s (fun i => writesOut i = true)) →
      (∀ b, s.mem.read? a = some b → (s.readResponse (BitVec.ofNat 12 a) .byte).data = b.setWidth 32) ∧
      (s.mem.read? a = none →
        (s.readResponse (BitVec.ofNat 12 a) .byte).data = (Config.unspecified 8 s.draws a).setWidth 32))

/-- R98: SETIN, run on an idle block, leaves its bytes in IN, IN_LEN their number, and changes nothing else (log 1, 8,
15). -/
def Obligations.SetInFillsInputBuffer : Prop :=
  ∀ (bs : Bytes) (s : State) (rest : List Event), bs.length ≤ 256 → s.status.busy = false →
    s.agenda = setIn bs ++ rest →
      ∃ t : State, Host.Core.run Sys2Proof.core (setIn bs).length s = .next t ∧ InHolds t bs ∧
        (∀ a, a < 0x100 ∨ 0x100 + bs.length ≤ a → t.mem.read? a = s.mem.read? a) ∧
        t = { s with mem := t.mem, inLen := t.inLen, agenda := rest, responses := t.responses }
end

