-- ==== Sys2Proof/Laws/State.lean ====
section
/-! SUPPORT. For every named update of State, what each field holds after it, so that no proof unfolds a record
update. -/

namespace Sys2Proof.Machine

/-! ## `setInLen` (R31) -/

@[simp] theorem State.setInLen_status (s : State) (v : BitVec 9) : (s.setInLen v).status = s.status := rfl
@[simp] theorem State.setInLen_inLen (s : State) (v : BitVec 9) : (s.setInLen v).inLen = v := rfl
@[simp] theorem State.setInLen_outLen (s : State) (v : BitVec 9) : (s.setInLen v).outLen = s.outLen := rfl
@[simp] theorem State.setInLen_crcArg (s : State) (v : BitVec 9) : (s.setInLen v).crcArg = s.crcArg := rfl
@[simp] theorem State.setInLen_crcRes (s : State) (v : BitVec 9) : (s.setInLen v).crcRes = s.crcRes := rfl
@[simp] theorem State.setInLen_msgId (s : State) (v : BitVec 9) : (s.setInLen v).msgId = s.msgId := rfl
@[simp] theorem State.setInLen_resId (s : State) (v : BitVec 9) : (s.setInLen v).resId = s.resId := rfl
@[simp] theorem State.setInLen_resLen (s : State) (v : BitVec 9) : (s.setInLen v).resLen = s.resLen := rfl
@[simp] theorem State.setInLen_layout (s : State) (v : BitVec 9) : (s.setInLen v).layout = s.layout := rfl
@[simp] theorem State.setInLen_fields (s : State) (v : BitVec 9) : (s.setInLen v).fields = s.fields := rfl
@[simp] theorem State.setInLen_mem (s : State) (v : BitVec 9) : (s.setInLen v).mem = s.mem := rfl
@[simp] theorem State.setInLen_latchedOp (s : State) (v : BitVec 9) : (s.setInLen v).latchedOp = s.latchedOp := rfl
@[simp] theorem State.setInLen_config (s : State) (v : BitVec 9) : (s.setInLen v).config = s.config := rfl
@[simp] theorem State.setInLen_agenda (s : State) (v : BitVec 9) : (s.setInLen v).agenda = s.agenda := rfl
@[simp] theorem State.setInLen_responses (s : State) (v : BitVec 9) : (s.setInLen v).responses = s.responses := rfl
@[simp] theorem State.setInLen_draws (s : State) (v : BitVec 9) : (s.setInLen v).draws = s.draws := rfl

/-! ## `setCrcArg` (R33) -/

@[simp] theorem State.setCrcArg_status (s : State) (v : Word16) : (s.setCrcArg v).status = s.status := rfl
@[simp] theorem State.setCrcArg_inLen (s : State) (v : Word16) : (s.setCrcArg v).inLen = s.inLen := rfl
@[simp] theorem State.setCrcArg_outLen (s : State) (v : Word16) : (s.setCrcArg v).outLen = s.outLen := rfl
@[simp] theorem State.setCrcArg_crcArg (s : State) (v : Word16) : (s.setCrcArg v).crcArg = v := rfl
@[simp] theorem State.setCrcArg_crcRes (s : State) (v : Word16) : (s.setCrcArg v).crcRes = s.crcRes := rfl
@[simp] theorem State.setCrcArg_msgId (s : State) (v : Word16) : (s.setCrcArg v).msgId = s.msgId := rfl
@[simp] theorem State.setCrcArg_resId (s : State) (v : Word16) : (s.setCrcArg v).resId = s.resId := rfl
@[simp] theorem State.setCrcArg_resLen (s : State) (v : Word16) : (s.setCrcArg v).resLen = s.resLen := rfl
@[simp] theorem State.setCrcArg_layout (s : State) (v : Word16) : (s.setCrcArg v).layout = s.layout := rfl
@[simp] theorem State.setCrcArg_fields (s : State) (v : Word16) : (s.setCrcArg v).fields = s.fields := rfl
@[simp] theorem State.setCrcArg_mem (s : State) (v : Word16) : (s.setCrcArg v).mem = s.mem := rfl
@[simp] theorem State.setCrcArg_latchedOp (s : State) (v : Word16) : (s.setCrcArg v).latchedOp = s.latchedOp := rfl
@[simp] theorem State.setCrcArg_config (s : State) (v : Word16) : (s.setCrcArg v).config = s.config := rfl
@[simp] theorem State.setCrcArg_agenda (s : State) (v : Word16) : (s.setCrcArg v).agenda = s.agenda := rfl
@[simp] theorem State.setCrcArg_responses (s : State) (v : Word16) : (s.setCrcArg v).responses = s.responses := rfl
@[simp] theorem State.setCrcArg_draws (s : State) (v : Word16) : (s.setCrcArg v).draws = s.draws := rfl

/-! ## `setMsgId` (R35) -/

@[simp] theorem State.setMsgId_status (s : State) (v : Byte) : (s.setMsgId v).status = s.status := rfl
@[simp] theorem State.setMsgId_inLen (s : State) (v : Byte) : (s.setMsgId v).inLen = s.inLen := rfl
@[simp] theorem State.setMsgId_outLen (s : State) (v : Byte) : (s.setMsgId v).outLen = s.outLen := rfl
@[simp] theorem State.setMsgId_crcArg (s : State) (v : Byte) : (s.setMsgId v).crcArg = s.crcArg := rfl
@[simp] theorem State.setMsgId_crcRes (s : State) (v : Byte) : (s.setMsgId v).crcRes = s.crcRes := rfl
@[simp] theorem State.setMsgId_msgId (s : State) (v : Byte) : (s.setMsgId v).msgId = v := rfl
@[simp] theorem State.setMsgId_resId (s : State) (v : Byte) : (s.setMsgId v).resId = s.resId := rfl
@[simp] theorem State.setMsgId_resLen (s : State) (v : Byte) : (s.setMsgId v).resLen = s.resLen := rfl
@[simp] theorem State.setMsgId_layout (s : State) (v : Byte) : (s.setMsgId v).layout = s.layout := rfl
@[simp] theorem State.setMsgId_fields (s : State) (v : Byte) : (s.setMsgId v).fields = s.fields := rfl
@[simp] theorem State.setMsgId_mem (s : State) (v : Byte) : (s.setMsgId v).mem = s.mem := rfl
@[simp] theorem State.setMsgId_latchedOp (s : State) (v : Byte) : (s.setMsgId v).latchedOp = s.latchedOp := rfl
@[simp] theorem State.setMsgId_config (s : State) (v : Byte) : (s.setMsgId v).config = s.config := rfl
@[simp] theorem State.setMsgId_agenda (s : State) (v : Byte) : (s.setMsgId v).agenda = s.agenda := rfl
@[simp] theorem State.setMsgId_responses (s : State) (v : Byte) : (s.setMsgId v).responses = s.responses := rfl
@[simp] theorem State.setMsgId_draws (s : State) (v : Byte) : (s.setMsgId v).draws = s.draws := rfl

/-! ## `setLayout` (R38) -/

@[simp] theorem State.setLayout_status (s : State) (v : BitVec 4) : (s.setLayout v).status = s.status := rfl
@[simp] theorem State.setLayout_inLen (s : State) (v : BitVec 4) : (s.setLayout v).inLen = s.inLen := rfl
@[simp] theorem State.setLayout_outLen (s : State) (v : BitVec 4) : (s.setLayout v).outLen = s.outLen := rfl
@[simp] theorem State.setLayout_crcArg (s : State) (v : BitVec 4) : (s.setLayout v).crcArg = s.crcArg := rfl
@[simp] theorem State.setLayout_crcRes (s : State) (v : BitVec 4) : (s.setLayout v).crcRes = s.crcRes := rfl
@[simp] theorem State.setLayout_msgId (s : State) (v : BitVec 4) : (s.setLayout v).msgId = s.msgId := rfl
@[simp] theorem State.setLayout_resId (s : State) (v : BitVec 4) : (s.setLayout v).resId = s.resId := rfl
@[simp] theorem State.setLayout_resLen (s : State) (v : BitVec 4) : (s.setLayout v).resLen = s.resLen := rfl
@[simp] theorem State.setLayout_layout (s : State) (v : BitVec 4) : (s.setLayout v).layout = v := rfl
@[simp] theorem State.setLayout_fields (s : State) (v : BitVec 4) : (s.setLayout v).fields = s.fields := rfl
@[simp] theorem State.setLayout_mem (s : State) (v : BitVec 4) : (s.setLayout v).mem = s.mem := rfl
@[simp] theorem State.setLayout_latchedOp (s : State) (v : BitVec 4) : (s.setLayout v).latchedOp = s.latchedOp := rfl
@[simp] theorem State.setLayout_config (s : State) (v : BitVec 4) : (s.setLayout v).config = s.config := rfl
@[simp] theorem State.setLayout_agenda (s : State) (v : BitVec 4) : (s.setLayout v).agenda = s.agenda := rfl
@[simp] theorem State.setLayout_responses (s : State) (v : BitVec 4) : (s.setLayout v).responses = s.responses := rfl
@[simp] theorem State.setLayout_draws (s : State) (v : BitVec 4) : (s.setLayout v).draws = s.draws := rfl

/-! ## `setFieldLo` (R67) -/

@[simp] theorem State.setFieldLo_status (s : State) (i : Fin 16) (v : Word32) :
    (s.setFieldLo i v).status = s.status := rfl
@[simp] theorem State.setFieldLo_inLen (s : State) (i : Fin 16) (v : Word32) :
    (s.setFieldLo i v).inLen = s.inLen := rfl
@[simp] theorem State.setFieldLo_outLen (s : State) (i : Fin 16) (v : Word32) :
    (s.setFieldLo i v).outLen = s.outLen := rfl
@[simp] theorem State.setFieldLo_crcArg (s : State) (i : Fin 16) (v : Word32) :
    (s.setFieldLo i v).crcArg = s.crcArg := rfl
@[simp] theorem State.setFieldLo_crcRes (s : State) (i : Fin 16) (v : Word32) :
    (s.setFieldLo i v).crcRes = s.crcRes := rfl
@[simp] theorem State.setFieldLo_msgId (s : State) (i : Fin 16) (v : Word32) :
    (s.setFieldLo i v).msgId = s.msgId := rfl
@[simp] theorem State.setFieldLo_resId (s : State) (i : Fin 16) (v : Word32) :
    (s.setFieldLo i v).resId = s.resId := rfl
@[simp] theorem State.setFieldLo_resLen (s : State) (i : Fin 16) (v : Word32) :
    (s.setFieldLo i v).resLen = s.resLen := rfl
@[simp] theorem State.setFieldLo_layout (s : State) (i : Fin 16) (v : Word32) :
    (s.setFieldLo i v).layout = s.layout := rfl
@[simp] theorem State.setFieldLo_fields (s : State) (i : Fin 16) (v : Word32) :
    (s.setFieldLo i v).fields = s.fields.set i { s.fields[i] with lo := .value v } := rfl
@[simp] theorem State.setFieldLo_mem (s : State) (i : Fin 16) (v : Word32) : (s.setFieldLo i v).mem = s.mem := rfl
@[simp] theorem State.setFieldLo_latchedOp (s : State) (i : Fin 16) (v : Word32) :
    (s.setFieldLo i v).latchedOp = s.latchedOp := rfl
@[simp] theorem State.setFieldLo_config (s : State) (i : Fin 16) (v : Word32) :
    (s.setFieldLo i v).config = s.config := rfl
@[simp] theorem State.setFieldLo_agenda (s : State) (i : Fin 16) (v : Word32) :
    (s.setFieldLo i v).agenda = s.agenda := rfl
@[simp] theorem State.setFieldLo_responses (s : State) (i : Fin 16) (v : Word32) :
    (s.setFieldLo i v).responses = s.responses := rfl
@[simp] theorem State.setFieldLo_draws (s : State) (i : Fin 16) (v : Word32) :
    (s.setFieldLo i v).draws = s.draws := rfl

/-! ## `setFieldHi` (R67) -/

@[simp] theorem State.setFieldHi_status (s : State) (i : Fin 16) (v : Word32) :
    (s.setFieldHi i v).status = s.status := rfl
@[simp] theorem State.setFieldHi_inLen (s : State) (i : Fin 16) (v : Word32) :
    (s.setFieldHi i v).inLen = s.inLen := rfl
@[simp] theorem State.setFieldHi_outLen (s : State) (i : Fin 16) (v : Word32) :
    (s.setFieldHi i v).outLen = s.outLen := rfl
@[simp] theorem State.setFieldHi_crcArg (s : State) (i : Fin 16) (v : Word32) :
    (s.setFieldHi i v).crcArg = s.crcArg := rfl
@[simp] theorem State.setFieldHi_crcRes (s : State) (i : Fin 16) (v : Word32) :
    (s.setFieldHi i v).crcRes = s.crcRes := rfl
@[simp] theorem State.setFieldHi_msgId (s : State) (i : Fin 16) (v : Word32) :
    (s.setFieldHi i v).msgId = s.msgId := rfl
@[simp] theorem State.setFieldHi_resId (s : State) (i : Fin 16) (v : Word32) :
    (s.setFieldHi i v).resId = s.resId := rfl
@[simp] theorem State.setFieldHi_resLen (s : State) (i : Fin 16) (v : Word32) :
    (s.setFieldHi i v).resLen = s.resLen := rfl
@[simp] theorem State.setFieldHi_layout (s : State) (i : Fin 16) (v : Word32) :
    (s.setFieldHi i v).layout = s.layout := rfl
@[simp] theorem State.setFieldHi_fields (s : State) (i : Fin 16) (v : Word32) :
    (s.setFieldHi i v).fields = s.fields.set i { s.fields[i] with hi := .value v } := rfl
@[simp] theorem State.setFieldHi_mem (s : State) (i : Fin 16) (v : Word32) : (s.setFieldHi i v).mem = s.mem := rfl
@[simp] theorem State.setFieldHi_latchedOp (s : State) (i : Fin 16) (v : Word32) :
    (s.setFieldHi i v).latchedOp = s.latchedOp := rfl
@[simp] theorem State.setFieldHi_config (s : State) (i : Fin 16) (v : Word32) :
    (s.setFieldHi i v).config = s.config := rfl
@[simp] theorem State.setFieldHi_agenda (s : State) (i : Fin 16) (v : Word32) :
    (s.setFieldHi i v).agenda = s.agenda := rfl
@[simp] theorem State.setFieldHi_responses (s : State) (i : Fin 16) (v : Word32) :
    (s.setFieldHi i v).responses = s.responses := rfl
@[simp] theorem State.setFieldHi_draws (s : State) (i : Fin 16) (v : Word32) :
    (s.setFieldHi i v).draws = s.draws := rfl

/-! ## `storeBytes` (R66) -/

@[simp] theorem State.storeBytes_status (s : State) (a : Nat) (bs : Bytes) :
    (s.storeBytes a bs).status = s.status := rfl
@[simp] theorem State.storeBytes_inLen (s : State) (a : Nat) (bs : Bytes) : (s.storeBytes a bs).inLen = s.inLen := rfl
@[simp] theorem State.storeBytes_outLen (s : State) (a : Nat) (bs : Bytes) :
    (s.storeBytes a bs).outLen = s.outLen := rfl
@[simp] theorem State.storeBytes_crcArg (s : State) (a : Nat) (bs : Bytes) :
    (s.storeBytes a bs).crcArg = s.crcArg := rfl
@[simp] theorem State.storeBytes_crcRes (s : State) (a : Nat) (bs : Bytes) :
    (s.storeBytes a bs).crcRes = s.crcRes := rfl
@[simp] theorem State.storeBytes_msgId (s : State) (a : Nat) (bs : Bytes) : (s.storeBytes a bs).msgId = s.msgId := rfl
@[simp] theorem State.storeBytes_resId (s : State) (a : Nat) (bs : Bytes) : (s.storeBytes a bs).resId = s.resId := rfl
@[simp] theorem State.storeBytes_resLen (s : State) (a : Nat) (bs : Bytes) :
    (s.storeBytes a bs).resLen = s.resLen := rfl
@[simp] theorem State.storeBytes_layout (s : State) (a : Nat) (bs : Bytes) :
    (s.storeBytes a bs).layout = s.layout := rfl
@[simp] theorem State.storeBytes_fields (s : State) (a : Nat) (bs : Bytes) :
    (s.storeBytes a bs).fields = s.fields := rfl
@[simp] theorem State.storeBytes_mem (s : State) (a : Nat) (bs : Bytes) :
    (s.storeBytes a bs).mem = s.mem.writeBytes a bs := rfl
@[simp] theorem State.storeBytes_latchedOp (s : State) (a : Nat) (bs : Bytes) :
    (s.storeBytes a bs).latchedOp = s.latchedOp := rfl
@[simp] theorem State.storeBytes_config (s : State) (a : Nat) (bs : Bytes) :
    (s.storeBytes a bs).config = s.config := rfl
@[simp] theorem State.storeBytes_agenda (s : State) (a : Nat) (bs : Bytes) :
    (s.storeBytes a bs).agenda = s.agenda := rfl
@[simp] theorem State.storeBytes_responses (s : State) (a : Nat) (bs : Bytes) :
    (s.storeBytes a bs).responses = s.responses := rfl
@[simp] theorem State.storeBytes_draws (s : State) (a : Nat) (bs : Bytes) : (s.storeBytes a bs).draws = s.draws := rfl

/-! ## `accept` (R91) -/

@[simp] theorem State.accept_status (s : State) (w : Word32) : (s.accept w).status = s.status.accepted := rfl
@[simp] theorem State.accept_inLen (s : State) (w : Word32) : (s.accept w).inLen = s.inLen := rfl
@[simp] theorem State.accept_outLen (s : State) (w : Word32) : (s.accept w).outLen = s.outLen := rfl
@[simp] theorem State.accept_crcArg (s : State) (w : Word32) : (s.accept w).crcArg = s.crcArg := rfl
@[simp] theorem State.accept_crcRes (s : State) (w : Word32) : (s.accept w).crcRes = s.crcRes := rfl
@[simp] theorem State.accept_msgId (s : State) (w : Word32) : (s.accept w).msgId = s.msgId := rfl
@[simp] theorem State.accept_resId (s : State) (w : Word32) : (s.accept w).resId = s.resId := rfl
@[simp] theorem State.accept_resLen (s : State) (w : Word32) : (s.accept w).resLen = s.resLen := rfl
@[simp] theorem State.accept_layout (s : State) (w : Word32) : (s.accept w).layout = s.layout := rfl
@[simp] theorem State.accept_fields (s : State) (w : Word32) : (s.accept w).fields = s.fields := rfl
@[simp] theorem State.accept_mem (s : State) (w : Word32) : (s.accept w).mem = s.mem := rfl
@[simp] theorem State.accept_latchedOp (s : State) (w : Word32) : (s.accept w).latchedOp = opField w := rfl
@[simp] theorem State.accept_config (s : State) (w : Word32) : (s.accept w).config = s.config := rfl
@[simp] theorem State.accept_agenda (s : State) (w : Word32) : (s.accept w).agenda = s.agenda := rfl
@[simp] theorem State.accept_responses (s : State) (w : Word32) : (s.accept w).responses = s.responses := rfl
@[simp] theorem State.accept_draws (s : State) (w : Word32) : (s.accept w).draws = s.draws := rfl

/-! ## `dropWrite` (R285) -/

@[simp] theorem State.dropWrite_status (s : State) : (s.dropWrite).status = s.status.hazSet := rfl
@[simp] theorem State.dropWrite_inLen (s : State) : (s.dropWrite).inLen = s.inLen := rfl
@[simp] theorem State.dropWrite_outLen (s : State) : (s.dropWrite).outLen = s.outLen := rfl
@[simp] theorem State.dropWrite_crcArg (s : State) : (s.dropWrite).crcArg = s.crcArg := rfl
@[simp] theorem State.dropWrite_crcRes (s : State) : (s.dropWrite).crcRes = s.crcRes := rfl
@[simp] theorem State.dropWrite_msgId (s : State) : (s.dropWrite).msgId = s.msgId := rfl
@[simp] theorem State.dropWrite_resId (s : State) : (s.dropWrite).resId = s.resId := rfl
@[simp] theorem State.dropWrite_resLen (s : State) : (s.dropWrite).resLen = s.resLen := rfl
@[simp] theorem State.dropWrite_layout (s : State) : (s.dropWrite).layout = s.layout := rfl
@[simp] theorem State.dropWrite_fields (s : State) : (s.dropWrite).fields = s.fields := rfl
@[simp] theorem State.dropWrite_mem (s : State) : (s.dropWrite).mem = s.mem := rfl
@[simp] theorem State.dropWrite_latchedOp (s : State) : (s.dropWrite).latchedOp = s.latchedOp := rfl
@[simp] theorem State.dropWrite_config (s : State) : (s.dropWrite).config = s.config := rfl
@[simp] theorem State.dropWrite_agenda (s : State) : (s.dropWrite).agenda = s.agenda := rfl
@[simp] theorem State.dropWrite_responses (s : State) : (s.dropWrite).responses = s.responses := rfl
@[simp] theorem State.dropWrite_draws (s : State) : (s.dropWrite).draws = s.draws := rfl

/-! ## `clearHaz` (R25) -/

@[simp] theorem State.clearHaz_status (s : State) : (s.clearHaz).status = s.status.hazCleared := rfl
@[simp] theorem State.clearHaz_inLen (s : State) : (s.clearHaz).inLen = s.inLen := rfl
@[simp] theorem State.clearHaz_outLen (s : State) : (s.clearHaz).outLen = s.outLen := rfl
@[simp] theorem State.clearHaz_crcArg (s : State) : (s.clearHaz).crcArg = s.crcArg := rfl
@[simp] theorem State.clearHaz_crcRes (s : State) : (s.clearHaz).crcRes = s.crcRes := rfl
@[simp] theorem State.clearHaz_msgId (s : State) : (s.clearHaz).msgId = s.msgId := rfl
@[simp] theorem State.clearHaz_resId (s : State) : (s.clearHaz).resId = s.resId := rfl
@[simp] theorem State.clearHaz_resLen (s : State) : (s.clearHaz).resLen = s.resLen := rfl
@[simp] theorem State.clearHaz_layout (s : State) : (s.clearHaz).layout = s.layout := rfl
@[simp] theorem State.clearHaz_fields (s : State) : (s.clearHaz).fields = s.fields := rfl
@[simp] theorem State.clearHaz_mem (s : State) : (s.clearHaz).mem = s.mem := rfl
@[simp] theorem State.clearHaz_latchedOp (s : State) : (s.clearHaz).latchedOp = s.latchedOp := rfl
@[simp] theorem State.clearHaz_config (s : State) : (s.clearHaz).config = s.config := rfl
@[simp] theorem State.clearHaz_agenda (s : State) : (s.clearHaz).agenda = s.agenda := rfl
@[simp] theorem State.clearHaz_responses (s : State) : (s.clearHaz).responses = s.responses := rfl
@[simp] theorem State.clearHaz_draws (s : State) : (s.clearHaz).draws = s.draws := rfl

/-! ## `reply` (R60) -/

@[simp] theorem State.reply_status (s : State) (r : BusResponse) : (s.reply r).status = s.status := rfl
@[simp] theorem State.reply_inLen (s : State) (r : BusResponse) : (s.reply r).inLen = s.inLen := rfl
@[simp] theorem State.reply_outLen (s : State) (r : BusResponse) : (s.reply r).outLen = s.outLen := rfl
@[simp] theorem State.reply_crcArg (s : State) (r : BusResponse) : (s.reply r).crcArg = s.crcArg := rfl
@[simp] theorem State.reply_crcRes (s : State) (r : BusResponse) : (s.reply r).crcRes = s.crcRes := rfl
@[simp] theorem State.reply_msgId (s : State) (r : BusResponse) : (s.reply r).msgId = s.msgId := rfl
@[simp] theorem State.reply_resId (s : State) (r : BusResponse) : (s.reply r).resId = s.resId := rfl
@[simp] theorem State.reply_resLen (s : State) (r : BusResponse) : (s.reply r).resLen = s.resLen := rfl
@[simp] theorem State.reply_layout (s : State) (r : BusResponse) : (s.reply r).layout = s.layout := rfl
@[simp] theorem State.reply_fields (s : State) (r : BusResponse) : (s.reply r).fields = s.fields := rfl
@[simp] theorem State.reply_mem (s : State) (r : BusResponse) : (s.reply r).mem = s.mem := rfl
@[simp] theorem State.reply_latchedOp (s : State) (r : BusResponse) : (s.reply r).latchedOp = s.latchedOp := rfl
@[simp] theorem State.reply_config (s : State) (r : BusResponse) : (s.reply r).config = s.config := rfl
@[simp] theorem State.reply_agenda (s : State) (r : BusResponse) : (s.reply r).agenda = s.agenda := rfl
@[simp] theorem State.reply_responses (s : State) (r : BusResponse) : (s.reply r).responses = r :: s.responses := rfl
@[simp] theorem State.reply_draws (s : State) (r : BusResponse) : (s.reply r).draws = s.draws := rfl

/-! ## `countDraw` (R13) -/

@[simp] theorem State.countDraw_status (s : State) : (s.countDraw).status = s.status := rfl
@[simp] theorem State.countDraw_inLen (s : State) : (s.countDraw).inLen = s.inLen := rfl
@[simp] theorem State.countDraw_outLen (s : State) : (s.countDraw).outLen = s.outLen := rfl
@[simp] theorem State.countDraw_crcArg (s : State) : (s.countDraw).crcArg = s.crcArg := rfl
@[simp] theorem State.countDraw_crcRes (s : State) : (s.countDraw).crcRes = s.crcRes := rfl
@[simp] theorem State.countDraw_msgId (s : State) : (s.countDraw).msgId = s.msgId := rfl
@[simp] theorem State.countDraw_resId (s : State) : (s.countDraw).resId = s.resId := rfl
@[simp] theorem State.countDraw_resLen (s : State) : (s.countDraw).resLen = s.resLen := rfl
@[simp] theorem State.countDraw_layout (s : State) : (s.countDraw).layout = s.layout := rfl
@[simp] theorem State.countDraw_fields (s : State) : (s.countDraw).fields = s.fields := rfl
@[simp] theorem State.countDraw_mem (s : State) : (s.countDraw).mem = s.mem := rfl
@[simp] theorem State.countDraw_latchedOp (s : State) : (s.countDraw).latchedOp = s.latchedOp := rfl
@[simp] theorem State.countDraw_config (s : State) : (s.countDraw).config = s.config := rfl
@[simp] theorem State.countDraw_agenda (s : State) : (s.countDraw).agenda = s.agenda := rfl
@[simp] theorem State.countDraw_responses (s : State) : (s.countDraw).responses = s.responses := rfl
@[simp] theorem State.countDraw_draws (s : State) : (s.countDraw).draws = s.draws + 1 := rfl

/-! ## `setAgenda` (R14) -/

@[simp] theorem State.setAgenda_status (s : State) (es : List Event) : (s.setAgenda es).status = s.status := rfl
@[simp] theorem State.setAgenda_inLen (s : State) (es : List Event) : (s.setAgenda es).inLen = s.inLen := rfl
@[simp] theorem State.setAgenda_outLen (s : State) (es : List Event) : (s.setAgenda es).outLen = s.outLen := rfl
@[simp] theorem State.setAgenda_crcArg (s : State) (es : List Event) : (s.setAgenda es).crcArg = s.crcArg := rfl
@[simp] theorem State.setAgenda_crcRes (s : State) (es : List Event) : (s.setAgenda es).crcRes = s.crcRes := rfl
@[simp] theorem State.setAgenda_msgId (s : State) (es : List Event) : (s.setAgenda es).msgId = s.msgId := rfl
@[simp] theorem State.setAgenda_resId (s : State) (es : List Event) : (s.setAgenda es).resId = s.resId := rfl
@[simp] theorem State.setAgenda_resLen (s : State) (es : List Event) : (s.setAgenda es).resLen = s.resLen := rfl
@[simp] theorem State.setAgenda_layout (s : State) (es : List Event) : (s.setAgenda es).layout = s.layout := rfl
@[simp] theorem State.setAgenda_fields (s : State) (es : List Event) : (s.setAgenda es).fields = s.fields := rfl
@[simp] theorem State.setAgenda_mem (s : State) (es : List Event) : (s.setAgenda es).mem = s.mem := rfl
@[simp] theorem State.setAgenda_latchedOp (s : State) (es : List Event) :
    (s.setAgenda es).latchedOp = s.latchedOp := rfl
@[simp] theorem State.setAgenda_config (s : State) (es : List Event) : (s.setAgenda es).config = s.config := rfl
@[simp] theorem State.setAgenda_agenda (s : State) (es : List Event) : (s.setAgenda es).agenda = es := rfl
@[simp] theorem State.setAgenda_responses (s : State) (es : List Event) :
    (s.setAgenda es).responses = s.responses := rfl
@[simp] theorem State.setAgenda_draws (s : State) (es : List Event) : (s.setAgenda es).draws = s.draws := rfl

/-! ## `writeEffect` (R253) -/

@[simp] theorem State.writeEffect_status (s : State) (e : Effect) : (s.writeEffect e).status = s.status := rfl
@[simp] theorem State.writeEffect_inLen (s : State) (e : Effect) : (s.writeEffect e).inLen = s.inLen := rfl
@[simp] theorem State.writeEffect_outLen (s : State) (e : Effect) :
    (s.writeEffect e).outLen = BitVec.ofNat 9 e.out.length := rfl
@[simp] theorem State.writeEffect_crcArg (s : State) (e : Effect) : (s.writeEffect e).crcArg = s.crcArg := rfl
@[simp] theorem State.writeEffect_crcRes (s : State) (e : Effect) :
    (s.writeEffect e).crcRes = s.crcRes.update e.crcRes := rfl
@[simp] theorem State.writeEffect_msgId (s : State) (e : Effect) : (s.writeEffect e).msgId = s.msgId := rfl
@[simp] theorem State.writeEffect_resId (s : State) (e : Effect) :
    (s.writeEffect e).resId = s.resId.update e.resId := rfl
@[simp] theorem State.writeEffect_resLen (s : State) (e : Effect) :
    (s.writeEffect e).resLen = s.resLen.update e.resLen := rfl
@[simp] theorem State.writeEffect_layout (s : State) (e : Effect) : (s.writeEffect e).layout = s.layout := rfl
@[simp] theorem State.writeEffect_fields (s : State) (e : Effect) :
    (s.writeEffect e).fields = writeFields s.fields e.fields := rfl
@[simp] theorem State.writeEffect_mem (s : State) (e : Effect) :
    (s.writeEffect e).mem = s.mem.writeBytes Config.outBase e.out := rfl
@[simp] theorem State.writeEffect_latchedOp (s : State) (e : Effect) :
    (s.writeEffect e).latchedOp = s.latchedOp := rfl
@[simp] theorem State.writeEffect_config (s : State) (e : Effect) : (s.writeEffect e).config = s.config := rfl
@[simp] theorem State.writeEffect_agenda (s : State) (e : Effect) : (s.writeEffect e).agenda = s.agenda := rfl
@[simp] theorem State.writeEffect_responses (s : State) (e : Effect) :
    (s.writeEffect e).responses = s.responses := rfl
@[simp] theorem State.writeEffect_draws (s : State) (e : Effect) : (s.writeEffect e).draws = s.draws := rfl

/-! ## `forgetOutputs` (R254) -/

@[simp] theorem State.forgetOutputs_status (s : State) (o : OutputSet) : (s.forgetOutputs o).status = s.status := rfl
@[simp] theorem State.forgetOutputs_inLen (s : State) (o : OutputSet) : (s.forgetOutputs o).inLen = s.inLen := rfl
@[simp] theorem State.forgetOutputs_outLen (s : State) (o : OutputSet) : (s.forgetOutputs o).outLen = 0 := rfl
@[simp] theorem State.forgetOutputs_crcArg (s : State) (o : OutputSet) : (s.forgetOutputs o).crcArg = s.crcArg := rfl
@[simp] theorem State.forgetOutputs_crcRes (s : State) (o : OutputSet) :
    (s.forgetOutputs o).crcRes = s.crcRes.forgetIf o.crcRes := rfl
@[simp] theorem State.forgetOutputs_msgId (s : State) (o : OutputSet) : (s.forgetOutputs o).msgId = s.msgId := rfl
@[simp] theorem State.forgetOutputs_resId (s : State) (o : OutputSet) :
    (s.forgetOutputs o).resId = s.resId.forgetIf o.resId := rfl
@[simp] theorem State.forgetOutputs_resLen (s : State) (o : OutputSet) :
    (s.forgetOutputs o).resLen = s.resLen.forgetIf o.resLen := rfl
@[simp] theorem State.forgetOutputs_layout (s : State) (o : OutputSet) : (s.forgetOutputs o).layout = s.layout := rfl
@[simp] theorem State.forgetOutputs_fields (s : State) (o : OutputSet) :
    (s.forgetOutputs o).fields = forgetFields s.fields o.fields := rfl
@[simp] theorem State.forgetOutputs_mem (s : State) (o : OutputSet) :
    (s.forgetOutputs o).mem = if o.out then s.mem.forget Config.outBase Config.bufCap else s.mem := rfl
@[simp] theorem State.forgetOutputs_latchedOp (s : State) (o : OutputSet) :
    (s.forgetOutputs o).latchedOp = s.latchedOp := rfl
@[simp] theorem State.forgetOutputs_config (s : State) (o : OutputSet) : (s.forgetOutputs o).config = s.config := rfl
@[simp] theorem State.forgetOutputs_agenda (s : State) (o : OutputSet) : (s.forgetOutputs o).agenda = s.agenda := rfl
@[simp] theorem State.forgetOutputs_responses (s : State) (o : OutputSet) :
    (s.forgetOutputs o).responses = s.responses := rfl
@[simp] theorem State.forgetOutputs_draws (s : State) (o : OutputSet) : (s.forgetOutputs o).draws = s.draws := rfl

/-! ## `finish` (R253) -/

@[simp] theorem State.finish_status (s : State) (b : Bool) (c : BitVec 4) :
    (s.finish b c).status = s.status.completed b c := rfl
@[simp] theorem State.finish_inLen (s : State) (b : Bool) (c : BitVec 4) : (s.finish b c).inLen = s.inLen := rfl
@[simp] theorem State.finish_outLen (s : State) (b : Bool) (c : BitVec 4) : (s.finish b c).outLen = s.outLen := rfl
@[simp] theorem State.finish_crcArg (s : State) (b : Bool) (c : BitVec 4) : (s.finish b c).crcArg = s.crcArg := rfl
@[simp] theorem State.finish_crcRes (s : State) (b : Bool) (c : BitVec 4) : (s.finish b c).crcRes = s.crcRes := rfl
@[simp] theorem State.finish_msgId (s : State) (b : Bool) (c : BitVec 4) : (s.finish b c).msgId = s.msgId := rfl
@[simp] theorem State.finish_resId (s : State) (b : Bool) (c : BitVec 4) : (s.finish b c).resId = s.resId := rfl
@[simp] theorem State.finish_resLen (s : State) (b : Bool) (c : BitVec 4) : (s.finish b c).resLen = s.resLen := rfl
@[simp] theorem State.finish_layout (s : State) (b : Bool) (c : BitVec 4) : (s.finish b c).layout = s.layout := rfl
@[simp] theorem State.finish_fields (s : State) (b : Bool) (c : BitVec 4) : (s.finish b c).fields = s.fields := rfl
@[simp] theorem State.finish_mem (s : State) (b : Bool) (c : BitVec 4) : (s.finish b c).mem = s.mem := rfl
@[simp] theorem State.finish_latchedOp (s : State) (b : Bool) (c : BitVec 4) :
    (s.finish b c).latchedOp = s.latchedOp := rfl
@[simp] theorem State.finish_config (s : State) (b : Bool) (c : BitVec 4) : (s.finish b c).config = s.config := rfl
@[simp] theorem State.finish_agenda (s : State) (b : Bool) (c : BitVec 4) : (s.finish b c).agenda = s.agenda := rfl
@[simp] theorem State.finish_responses (s : State) (b : Bool) (c : BitVec 4) :
    (s.finish b c).responses = s.responses := rfl
@[simp] theorem State.finish_draws (s : State) (b : Bool) (c : BitVec 4) : (s.finish b c).draws = s.draws + 1 := rfl

/-! ## `resetEvent` (R280) -/

@[simp] theorem State.resetEvent_status (s : State) : (s.resetEvent).status = State.reset.status := rfl
@[simp] theorem State.resetEvent_inLen (s : State) : (s.resetEvent).inLen = State.reset.inLen := rfl
@[simp] theorem State.resetEvent_outLen (s : State) : (s.resetEvent).outLen = State.reset.outLen := rfl
@[simp] theorem State.resetEvent_crcArg (s : State) : (s.resetEvent).crcArg = State.reset.crcArg := rfl
@[simp] theorem State.resetEvent_crcRes (s : State) : (s.resetEvent).crcRes = State.reset.crcRes := rfl
@[simp] theorem State.resetEvent_msgId (s : State) : (s.resetEvent).msgId = State.reset.msgId := rfl
@[simp] theorem State.resetEvent_resId (s : State) : (s.resetEvent).resId = State.reset.resId := rfl
@[simp] theorem State.resetEvent_resLen (s : State) : (s.resetEvent).resLen = State.reset.resLen := rfl
@[simp] theorem State.resetEvent_layout (s : State) : (s.resetEvent).layout = State.reset.layout := rfl
@[simp] theorem State.resetEvent_fields (s : State) : (s.resetEvent).fields = State.reset.fields := rfl
@[simp] theorem State.resetEvent_mem (s : State) : (s.resetEvent).mem = State.reset.mem := rfl
@[simp] theorem State.resetEvent_latchedOp (s : State) : (s.resetEvent).latchedOp = State.reset.latchedOp := rfl
@[simp] theorem State.resetEvent_config (s : State) : (s.resetEvent).config = s.config := rfl
@[simp] theorem State.resetEvent_agenda (s : State) : (s.resetEvent).agenda = s.agenda := rfl
@[simp] theorem State.resetEvent_responses (s : State) : (s.resetEvent).responses = s.responses := rfl
@[simp] theorem State.resetEvent_draws (s : State) : (s.resetEvent).draws = s.draws := rfl

/-! ## STATUS (R25 to R30) -/

@[simp] theorem Status.accepted_busy (s : Status) : (s.accepted).busy = true := rfl
@[simp] theorem Status.accepted_done (s : Status) : (s.accepted).done = false := rfl
@[simp] theorem Status.accepted_bool (s : Status) : (s.accepted).bool = false := rfl
@[simp] theorem Status.accepted_haz (s : Status) : (s.accepted).haz = s.haz := rfl
@[simp] theorem Status.accepted_err (s : Status) : (s.accepted).err = 0 := rfl
@[simp] theorem Status.completed_busy (s : Status) (b : Bool) (c : BitVec 4) : (s.completed b c).busy = false := rfl
@[simp] theorem Status.completed_done (s : Status) (b : Bool) (c : BitVec 4) : (s.completed b c).done = true := rfl
@[simp] theorem Status.completed_bool (s : Status) (b : Bool) (c : BitVec 4) : (s.completed b c).bool = b := rfl
@[simp] theorem Status.completed_haz (s : Status) (b : Bool) (c : BitVec 4) : (s.completed b c).haz = s.haz := rfl
@[simp] theorem Status.completed_err (s : Status) (b : Bool) (c : BitVec 4) : (s.completed b c).err = c := rfl
@[simp] theorem Status.hazSet_busy (s : Status) : (s.hazSet).busy = s.busy := rfl
@[simp] theorem Status.hazSet_done (s : Status) : (s.hazSet).done = s.done := rfl
@[simp] theorem Status.hazSet_bool (s : Status) : (s.hazSet).bool = s.bool := rfl
@[simp] theorem Status.hazSet_haz (s : Status) : (s.hazSet).haz = true := rfl
@[simp] theorem Status.hazSet_err (s : Status) : (s.hazSet).err = s.err := rfl
@[simp] theorem Status.hazCleared_busy (s : Status) : (s.hazCleared).busy = s.busy := rfl
@[simp] theorem Status.hazCleared_done (s : Status) : (s.hazCleared).done = s.done := rfl
@[simp] theorem Status.hazCleared_bool (s : Status) : (s.hazCleared).bool = s.bool := rfl
@[simp] theorem Status.hazCleared_haz (s : Status) : (s.hazCleared).haz = false := rfl
@[simp] theorem Status.hazCleared_err (s : Status) : (s.hazCleared).err = s.err := rfl

end Sys2Proof.Machine
end

