-- ==== Sys2Proof/Laws/Bus.lean ====
section
/-! SUPPORT. What a bus access can do to the state. -/

namespace Sys2Proof.Machine

theorem State.unlessBusy_idle {s t : State} (h : s.status.busy = false) : s.unlessBusy t = t := by
  simp [State.unlessBusy, h]

theorem State.unlessBusy_busy {s t : State} (h : s.status.busy = true) : s.unlessBusy t = s.dropWrite := by
  simp [State.unlessBusy, h]

/-- R61, R73, R285: what an allowed write can do: nothing, clear HAZ, set HAZ (busy), or (idle) accept a command or
store into one operand register or into bytes of IN. -/
theorem State.writePlace_cases (s : State) (off n : Nat) (v : Word32) :
    s.writePlace off n v = s ∨ s.writePlace off n v = s.clearHaz ∨
    (s.status.busy = true ∧ s.writePlace off n v = s.dropWrite) ∨
    (s.status.busy = false ∧
      (s.writePlace off n v = s.accept v ∨ s.writePlace off n v = s.setInLen (v.setWidth 9) ∨
       s.writePlace off n v = s.setCrcArg (v.setWidth 16) ∨ s.writePlace off n v = s.setMsgId (v.setWidth 8) ∨
       s.writePlace off n v = s.setLayout (v.setWidth 4) ∨ (∃ i, s.writePlace off n v = s.setFieldLo i v) ∨
       (∃ i, s.writePlace off n v = s.setFieldHi i v) ∨
       (placeAt off = .inBuffer ∧ s.writePlace off n v = s.storeBytes off (leBytes n v)))) := by
  unfold State.writePlace
  cases hb : s.status.busy with
  | true =>
    simp only [State.unlessBusy_busy hb]
    split <;> first | (split <;> simp) | simp
  | false =>
    simp only [State.unlessBusy_idle hb]
    split
    case h_2 => split <;> simp
    case h_11 i _ => exact .inr (.inr (.inr ⟨trivial, .inr (.inr (.inr (.inr (.inr (.inl ⟨i, rfl⟩)))))⟩))
    case h_12 i _ => exact .inr (.inr (.inr ⟨trivial, .inr (.inr (.inr (.inr (.inr (.inr (.inl ⟨i, rfl⟩))))))⟩))
    all_goals simp_all

/-- R60, R70, R73: what a read can do. -/
theorem State.memRead_eq (s : State) (off : BitVec 12) (w : AccessWidth) :
    s.memRead off w = s.countDraw.reply (s.readResponse off w) ∨ s.memRead off w = s.reply (s.readResponse off w) := by
  unfold State.memRead
  split <;> simp

/-- R61, R70: what a write can do. -/
theorem State.memWrite_eq (s : State) (off : BitVec 12) (w : AccessWidth) (v : Word32) :
    (accessAllowed off w = true ∧
      s.memWrite off w v = (s.writePlace off.toNat w.bytes v).reply { status := .ok, data := 0 }) ∨
    (accessAllowed off w = false ∧ s.memWrite off w v = s.reply { status := .error, data := 0 }) := by
  unfold State.memWrite
  cases accessAllowed off w <;> simp

end Sys2Proof.Machine
end

