-- ==== Sys2Proof/Laws/Memory.lean ====
section
/-! SUPPORT. The laws of the byte list of IN and OUT: a read after each operation, and that each keeps the canonical
form. -/

namespace Sys2Proof.Machine

@[simp] theorem Memory.read?_nil (k : Nat) : Memory.read? [] k = none := rfl

theorem Memory.read?_cons (c : Host.Cell) (m : Memory) (k : Nat) :
    Memory.read? (c :: m) k = if c.1 = k then some c.2 else Memory.read? m k := rfl

theorem Memory.read?_write (m : Memory) (a : Nat) (b : Byte) (k : Nat) :
    Memory.read? (m.write a b) k = if k = a then some b else Memory.read? m k := by
  induction m with
  | nil =>
    by_cases hk : k = a
    · simp [Memory.write, Memory.read?_cons, hk]
    · simp [Memory.write, Memory.read?_cons, hk, Ne.symm hk]
  | cons c m ih =>
    simp only [Memory.write]
    by_cases hk : k = a
    · subst hk
      split
      · simp [Memory.read?_cons]
      · split
        · simp [Memory.read?_cons]
        · rw [Memory.read?_cons, if_neg (by simp only; omega), ih]
          simp
    · split
      · simp [Memory.read?_cons, Ne.symm hk]
      · split
        · rename_i hc
          simp [Memory.read?_cons, Ne.symm hk, ← hc]
        · simp [Memory.read?_cons, ih, hk]

@[simp] theorem Memory.writeBytes_nil (m : Memory) (a : Nat) : m.writeBytes a [] = m := rfl

@[simp] theorem Memory.writeBytes_cons (m : Memory) (a : Nat) (b : Byte) (bs : Bytes) :
    m.writeBytes a (b :: bs) = (m.write a b).writeBytes (a + 1) bs := rfl

/-- A store of `bs` at `a` leaves every byte outside `[a, a + len(bs))` alone. -/
theorem Memory.read?_writeBytes_outside (m : Memory) (a : Nat) (bs : Bytes) (k : Nat)
    (h : k < a ∨ a + bs.length ≤ k) : Memory.read? (m.writeBytes a bs) k = Memory.read? m k := by
  induction bs generalizing m a with
  | nil => rfl
  | cons b bs ih =>
    simp only [List.length_cons] at h
    rw [Memory.writeBytes_cons, ih _ _ (by omega), Memory.read?_write, if_neg (by omega)]

/-- A store of `bs` at `a` puts `bs[j]` at `a + j`. -/
theorem Memory.read?_writeBytes_inside (m : Memory) (a : Nat) (bs : Bytes) (j : Nat) (h : j < bs.length) :
    Memory.read? (m.writeBytes a bs) (a + j) = some bs[j] := by
  induction bs generalizing m a j with
  | nil => simp at h
  | cons b bs ih =>
    rw [Memory.writeBytes_cons]
    cases j with
    | zero =>
      rw [Memory.read?_writeBytes_outside _ _ _ _ (by omega), Memory.read?_write]
      simp
    | succ j =>
      have := ih (m.write a b) (a + 1) j (by simpa using h)
      rw [show a + (j + 1) = a + 1 + j by omega, this]
      simp

/-- R254: the forgotten bytes are unspecified, the others as before. -/
theorem Memory.read?_forget (m : Memory) (a n k : Nat) :
    Memory.read? (m.forget a n) k = if a ≤ k ∧ k < a + n then none else Memory.read? m k := by
  unfold Memory.forget
  induction m with
  | nil => simp
  | cons c m ih =>
    rw [List.filter_cons, Memory.read?_cons]
    by_cases hc : c.1 < a ∨ a + n ≤ c.1
    · rw [if_pos (by simpa using hc), Memory.read?_cons, ih]
      split
      · rw [if_neg (by omega)]
      · rfl
    · rw [if_neg (by simpa using hc), ih]
      split
      · rfl
      · rw [if_neg (by omega)]

/-! ## The canonical form -/

theorem Memory.mem_write {m : Memory} {a : Nat} {b : Byte} {c : Host.Cell} (h : c ∈ m.write a b) :
    c = (a, b) ∨ c ∈ m := by
  induction m with
  | nil => simpa [Memory.write] using h
  | cons d m ih =>
    simp only [Memory.write] at h
    split at h
    · simpa using h
    · split at h
      · rcases List.mem_cons.mp h with h | h
        · exact .inl h
        · exact .inr (List.mem_cons_of_mem _ h)
      · rcases List.mem_cons.mp h with h | h
        · exact .inr (h ▸ List.mem_cons_self)
        · rcases ih h with h | h
          · exact .inl h
          · exact .inr (List.mem_cons_of_mem _ h)

theorem Memory.rising_write {m : Memory} (a : Nat) (b : Byte) (h : m.Pairwise (fun c d => c.1 < d.1)) :
    (m.write a b).Pairwise (fun c d => c.1 < d.1) := by
  induction m with
  | nil => simp [Memory.write]
  | cons c m ih =>
    obtain ⟨hc, hm⟩ := List.pairwise_cons.mp h
    simp only [Memory.write]
    split
    · rename_i hlt
      refine List.pairwise_cons.mpr ⟨fun d hd => ?_, h⟩
      rcases List.mem_cons.mp hd with rfl | hd
      · exact hlt
      · exact Nat.lt_trans hlt (hc d hd)
    · split
      · rename_i heq
        exact List.pairwise_cons.mpr ⟨fun d hd => heq ▸ hc d hd, hm⟩
      · refine List.pairwise_cons.mpr ⟨fun d hd => ?_, ih hm⟩
        rcases Memory.mem_write hd with rfl | hd
        · simp only; omega
        · exact hc d hd

theorem Memory.wf_nil : Memory.wf [] := ⟨List.Pairwise.nil, by simp⟩

theorem Memory.wf_write {m : Memory} (a : Nat) (b : Byte) (h : m.wf)
    (ha : Config.inBase ≤ a ∧ a < Config.outBase + Config.bufCap) : (m.write a b).wf := by
  refine ⟨Memory.rising_write a b h.1, fun c hc => ?_⟩
  rcases Memory.mem_write hc with rfl | hc
  · exact ha
  · exact h.2 c hc

theorem Memory.wf_writeBytes {m : Memory} (a : Nat) (bs : Bytes) (h : m.wf) (ha : Config.inBase ≤ a)
    (hb : a + bs.length ≤ Config.outBase + Config.bufCap) : (m.writeBytes a bs).wf := by
  induction bs generalizing m a with
  | nil => exact h
  | cons b bs ih =>
    simp only [List.length_cons] at hb
    exact ih (a + 1) (Memory.wf_write a b h ⟨ha, by omega⟩) (by omega) (by omega)

theorem Memory.wf_forget {m : Memory} (a n : Nat) (h : m.wf) : (m.forget a n).wf :=
  ⟨h.1.filter _, fun c hc => h.2 c (List.mem_filter.mp hc).1⟩

end Sys2Proof.Machine
end

