-- ==== Sys2Proof/Laws/Complete.lean ====
section
/-! SUPPORT. Reading operands and completing a command: what the shared operations answer, so that no proof about a
command unfolds them. -/

namespace Sys2Proof.Machine

/-! ## Operands -/

theorem State.byteAt_of_read? {s : State} {a : Nat} {b : Byte} (h : s.mem.read? a = some b) : s.byteAt a = b := by
  simp [State.byteAt, h]

@[simp] theorem State.inBytes_length (s : State) (n : Nat) : (s.inBytes n).length = n := by
  simp [State.inBytes]

@[simp] theorem State.input_length (s : State) : s.input.length = s.inLen.toNat := by simp [State.input]

theorem State.input_getElem? (s : State) (j : Nat) (h : j < s.inLen.toNat) :
    s.input[j]? = some (s.byteAt (0x100 + j)) := by
  simp [State.input, State.inBytes, h, Config.inBase]

theorem State.withInput_le {s : State} {cap : Nat} {body : Bytes → Except ErrorCode Effect}
    (h : s.inLen.toNat ≤ cap) : s.withInput cap body = body s.input := by
  simp [State.withInput, Nat.not_lt.mpr h]

theorem State.withInput_gt {s : State} {cap : Nat} {body : Bytes → Except ErrorCode Effect}
    (h : cap < s.inLen.toNat) : s.withInput cap body = .error .oversize := by
  simp [State.withInput, h]

theorem State.fieldCount_le (s : State) : s.fieldCount ≤ 16 := by
  unfold State.fieldCount
  split
  · rename_i l _
    exact l.atMost16
  · omega

/-! ## FIELD registers -/

theorem writeFields_get (fs : Vector FieldReg 16) (vs : List Word64) (j : Fin 16) :
    (writeFields fs vs)[j] = if h : j.val < vs.length then FieldReg.ofValue vs[j.val] else fs[j] := by
  simp [writeFields]

theorem forgetFields_get (fs : Vector FieldReg 16) (k : Nat) (j : Fin 16) :
    (forgetFields fs k)[j] = if j.val < k then { lo := .unspecified, hi := .unspecified } else fs[j] := by
  simp [forgetFields]

@[simp] theorem writeFields_nil (fs : Vector FieldReg 16) : writeFields fs [] = fs := by
  ext j hj <;> simp [writeFields]

@[simp] theorem forgetFields_zero (fs : Vector FieldReg 16) : forgetFields fs 0 = fs := by
  ext j hj <;> simp [forgetFields]

@[simp] theorem Content.update_none {w : Nat} (c : Content w) : c.update none = c := rfl

@[simp] theorem Content.update_some {w : Nat} (c : Content w) (v : BitVec w) : c.update (some v) = .value v := rfl

@[simp] theorem Content.forgetIf_false {w : Nat} (c : Content w) : c.forgetIf false = c := rfl

@[simp] theorem Content.forgetIf_true {w : Nat} (c : Content w) : c.forgetIf true = .unspecified := rfl

/-! ## Completion -/

theorem State.complete_ok (s : State) (o : OutputSet) (e : Effect) :
    s.complete o (.ok e) = (s.writeEffect e).finish e.bool 0 := rfl

theorem State.complete_error (s : State) (o : OutputSet) (c : ErrorCode) :
    s.complete o (.error c) = (s.forgetOutputs o).finish false c.code := rfl

/-- R252, R254: all an error can do to IN and OUT: it forgets the 256 bytes of OUT where OUT is in the output set, and
changes nothing where it is not (log 19). -/
theorem State.forgetOutputs_mem_cases (s : State) (o : OutputSet) :
    (o.out = true ∧ (s.forgetOutputs o).mem = s.mem.forget Config.outBase Config.bufCap) ∨
    (o.out = false ∧ (s.forgetOutputs o).mem = s.mem) := by
  rw [State.forgetOutputs_mem]
  cases h : o.out with
  | true => exact .inl ⟨rfl, rfl⟩
  | false => exact .inr ⟨rfl, rfl⟩

/-- R94: the body of each command. -/
def commandBody (i : Instr) (s : State) : Except ErrorCode Effect :=
  match i with
  | .crcCalc => crcCalcBody s
  | .crcUpdate => crcUpdateBody s
  | .crcVerify => crcVerifyBody s
  | .crcAppend => crcAppendBody s
  | .crcCheckStrip => crcCheckStripBody s
  | .cobsEncode => cobsEncodeBody s
  | .cobsDecode => cobsDecodeBody s
  | .cobsFrame => cobsFrameBody s
  | .cobsUnframe => cobsUnframeBody s
  | .msgPack => msgPackBody s
  | .msgUnpack => msgUnpackBody s
  | .msgIsResponse => msgIsResponseBody s
  | .msgGetRequestId => msgGetRequestIdBody s
  | .msgClassify => msgClassifyBody s
  | .structPack => structPackBody s
  | .structUnpack => structUnpackBody s
  | .txFrame => txFrameBody s
  | .rxFrame => rxFrameBody s

/-- Every command is the completion of its body with its output set. -/
theorem exec_eq_complete (i : Instr) (s : State) :
    exec i s = .next (s.complete (outputSetOf i s.fieldCount) (commandBody i s)) := by
  cases i <;> rfl

/-- What a command can do: complete with its body's effect, or with an error and its outputs unspecified. -/
theorem exec_cases {i : Instr} {s t : State} (h : exec i s = .next t) :
    (∃ e, commandBody i s = .ok e ∧ t = (s.writeEffect e).finish e.bool 0) ∨
    (∃ c, commandBody i s = .error c ∧ t = (s.forgetOutputs (outputSetOf i s.fieldCount)).finish false c.code) := by
  rw [exec_eq_complete] at h
  cases hb : commandBody i s with
  | ok e => rw [hb, State.complete_ok] at h; exact .inl ⟨e, rfl, (Host.Outcome.next.inj h).symm⟩
  | error c => rw [hb, State.complete_error] at h; exact .inr ⟨c, rfl, (Host.Outcome.next.inj h).symm⟩

theorem exec_of_ok {i : Instr} {s : State} {e : Effect} (h : commandBody i s = .ok e) :
    exec i s = .next ((s.writeEffect e).finish e.bool 0) := by
  rw [exec_eq_complete, h, State.complete_ok]

theorem exec_of_error {i : Instr} {s : State} {c : ErrorCode} (h : commandBody i s = .error c) :
    exec i s = .next ((s.forgetOutputs (outputSetOf i s.fieldCount)).finish false c.code) := by
  rw [exec_eq_complete, h, State.complete_error]

/-- R253: what every completion does whatever its command: it ends the busy window and keeps HAZ, the configuration and
the agenda. -/
theorem exec_keep {i : Instr} {s t : State} (h : exec i s = .next t) :
    t.config = s.config ∧ t.agenda = s.agenda ∧ t.status.busy = false ∧ t.status.haz = s.status.haz := by
  rcases exec_cases h with ⟨e, _, rfl⟩ | ⟨c, _, rfl⟩ <;> simp

theorem ErrorCode.code_ne_zero (c : ErrorCode) : c.code ≠ 0 := by cases c <;> decide

theorem ErrorCode.code_ne_15 (c : ErrorCode) : c.code ≠ 15 := by cases c <;> decide

end Sys2Proof.Machine
end

