-- ==== Sys2Proof/Laws/Step.lean ====
section
/-! SUPPORT. The step, agent by agent, and everything it can do. -/

namespace Sys2Proof.Machine

theorem engineTurn_idle {s : State} (h : s.status.busy = false) : engineTurn s = .next s := by
  simp [engineTurn, h]

theorem engineTurn_command {s : State} {i : Instr} (hb : s.status.busy = true) (hd : decodeOp s.latchedOp = .ok i) :
    engineTurn s = exec i s := by
  simp [engineTurn, engineStep, hb, hd]

theorem engineTurn_reserved {s : State} {r : DecodeReject} (hb : s.status.busy = true)
    (hd : decodeOp s.latchedOp = .error r) :
    engineTurn s = .next ((s.forgetOutputs reservedOutputSet).finish false 14) := by
  simp [engineTurn, engineStep, hb, hd, completeReserved, State.complete_error, ErrorCode.code]

theorem step_nil {s : State} (h : s.agenda = []) : step s = engineTurn s := by simp [step, agentStep, h]

theorem step_host {s : State} {a : Access} {rest : List Event} (h : s.agenda = .host a :: rest) :
    step s = .next ((s.setAgenda rest).access a) := by simp [step, agentStep, h]

theorem step_engine {s : State} {rest : List Event} (h : s.agenda = .engine :: rest) :
    step s = engineTurn (s.setAgenda rest) := by simp [step, agentStep, h]

theorem step_reset {s : State} {rest : List Event} (h : s.agenda = .reset :: rest) :
    step s = .next (s.setAgenda rest).resetEvent := by simp [step, agentStep, h]

/-- What the engine's turn can do: nothing on an idle block; else the latched command's completion, or the completion
of a reserved opcode. -/
theorem engineTurn_cases (s : State) :
    (s.status.busy = false ∧ engineTurn s = .next s) ∨
    (s.status.busy = true ∧ ∃ i, decodeOp s.latchedOp = .ok i ∧ engineTurn s = exec i s) ∨
    (s.status.busy = true ∧ (∃ r, decodeOp s.latchedOp = .error r) ∧
      engineTurn s = .next ((s.forgetOutputs reservedOutputSet).finish false 14)) := by
  cases hb : s.status.busy with
  | false => exact .inl ⟨rfl, engineTurn_idle hb⟩
  | true =>
    cases hd : decodeOp s.latchedOp with
    | ok i => exact .inr (.inl ⟨rfl, i, rfl, engineTurn_command hb hd⟩)
    | error r => exact .inr (.inr ⟨rfl, ⟨r, rfl⟩, engineTurn_reserved hb hd⟩)

/-- R14: what a step can do: one access of the host, one turn of the engine, or reset. -/
theorem step_cases (s : State) :
    (∃ a rest, s.agenda = .host a :: rest ∧ step s = .next ((s.setAgenda rest).access a)) ∨
    (∃ rest, (s.agenda = .engine :: rest ∨ (s.agenda = [] ∧ rest = [])) ∧
      step s = engineTurn (s.setAgenda rest)) ∨
    (∃ rest, s.agenda = .reset :: rest ∧ step s = .next (s.setAgenda rest).resetEvent) := by
  match h : s.agenda with
  | [] =>
    have hs : s.setAgenda [] = s := by cases s; simp_all [State.setAgenda]
    exact .inr (.inl ⟨[], .inr ⟨rfl, rfl⟩, by rw [step_nil h, hs]⟩)
  | .host a :: rest => exact .inl ⟨a, rest, rfl, step_host h⟩
  | .engine :: rest => exact .inr (.inl ⟨rest, .inl rfl, step_engine h⟩)
  | .reset :: rest => exact .inr (.inr ⟨rest, rfl, step_reset h⟩)

/-! ## Runs -/

theorem run_succ_of_next {M : Host.Core} {k : Nat} {s u : M.State} (h : M.step s = .next u) :
    M.run (k + 1) s = M.run k u := (Host.Core.run.eq_2 M s k).trans (by rw [h])

theorem next_of_run_succ {M : Host.Core} {k : Nat} {s t : M.State} (h : M.run (k + 1) s = .next t) :
    ∃ u, M.step s = .next u ∧ M.run k u = .next t := by
  have h' := (Host.Core.run.eq_2 M s k).symm.trans h
  cases hs : M.step s with
  | next u => rw [hs] at h'; exact ⟨u, rfl, h'⟩
  | fault r => rw [hs] at h'; cases h'
  | refused r => rw [hs] at h'; cases h'

/-- A run of `k + 1` steps is one step and a run of `k`. -/
theorem run_step {k : Nat} {s u : State} (h : step s = .next u) :
    Host.Core.run Sys2Proof.core (k + 1) s = Host.Core.run Sys2Proof.core k u :=
  run_succ_of_next (M := Sys2Proof.core) h

theorem step_of_run {k : Nat} {s t : State} (h : Host.Core.run Sys2Proof.core (k + 1) s = .next t) :
    ∃ u : State, step s = .next u ∧ Host.Core.run Sys2Proof.core k u = .next t :=
  next_of_run_succ (M := Sys2Proof.core) h

end Sys2Proof.Machine
end

