-- ==== Sys2Proof/Laws/Access.lean ====
section
/-! SUPPORT. Bus accesses against the map of the window as the statements spell it, and what one access keeps. -/

namespace Sys2Proof.Machine

/-! ## The map of the window -/

/-- R23: the registers of 0x000 to 0x027. -/
theorem placeAt_control :
    placeAt 0x000 = .cmd ∧ placeAt 0x004 = .status ∧ placeAt 0x008 = .inLen ∧ placeAt 0x00C = .outLen ∧
    placeAt 0x010 = .crcArg ∧ placeAt 0x014 = .crcRes ∧ placeAt 0x018 = .msgId ∧ placeAt 0x01C = .resId ∧
    placeAt 0x020 = .resLen ∧ placeAt 0x024 = .layout := by decide

/-- R23: the FIELD region. -/
theorem placeAt_field (off : Nat) (h1 : 0x80 ≤ off) (h2 : off < 0x100) : placeAt off = fieldRegister (off - 0x80) := by
  unfold placeAt
  rw [if_neg (by omega), if_neg (by show ¬ off < 0x80; omega), if_pos h2]

/-- R62: the IN buffer. -/
theorem placeAt_in (off : Nat) (h1 : 0x100 ≤ off) (h2 : off < 0x200) : placeAt off = .inBuffer := by
  unfold placeAt
  rw [if_neg (by omega), if_neg (by show ¬ off < 0x80; omega), if_neg (by show ¬ off < 0x100; omega), if_pos h2]

/-- R62: the OUT buffer. -/
theorem placeAt_out (off : Nat) (h1 : 0x200 ≤ off) (h2 : off < 0x300) : placeAt off = .outBuffer := by
  unfold placeAt
  rw [if_neg (by omega), if_neg (by show ¬ off < 0x80; omega), if_neg (by show ¬ off < 0x100; omega),
    if_neg (by show ¬ off < 0x200; omega), if_pos (show off < Config.outBase + Config.bufCap from h2)]

theorem fieldLo_toNat (j : Fin 16) : (BitVec.ofNat 12 (0x080 + 8 * j.val)).toNat = 0x080 + 8 * j.val := by
  have := j.isLt; simp; omega

theorem fieldHi_toNat (j : Fin 16) : (BitVec.ofNat 12 (0x084 + 8 * j.val)).toNat = 0x084 + 8 * j.val := by
  have := j.isLt; simp; omega

/-- R39: the low half of FIELD[j]. -/
theorem placeAt_fieldLo (j : Fin 16) : placeAt (BitVec.ofNat 12 (0x080 + 8 * j.val)).toNat = .fieldLo j := by
  rw [fieldLo_toNat, placeAt_field _ (by omega) (by have := j.isLt; omega)]; unfold fieldRegister
  rw [if_pos (by omega)]; congr 1; apply Fin.ext; simp; try omega

/-- R39: the high half of FIELD[j]. -/
theorem placeAt_fieldHi (j : Fin 16) : placeAt (BitVec.ofNat 12 (0x084 + 8 * j.val)).toNat = .fieldHi j := by
  rw [fieldHi_toNat, placeAt_field _ (by omega) (by have := j.isLt; omega)]; unfold fieldRegister
  rw [if_neg (by omega)]; congr 1; apply Fin.ext; simp; (try have := j.isLt; omega)

theorem widthAllowed_control (k : Nat) (h : k < 10) (w : AccessWidth) :
    widthAllowed (controlRegister k) w = (w == .word) := by
  match k, h with
  | 0, _ | 1, _ | 2, _ | 3, _ | 4, _ | 5, _ | 6, _ | 7, _ | 8, _ | 9, _ => rfl

theorem widthAllowed_field (d : Nat) (w : AccessWidth) : widthAllowed (fieldRegister d) w = (w == .word) := by
  unfold fieldRegister; split <;> rfl

/-- R64, R65, R68 in one line. -/
theorem widthAllowed_placeAt (off : Nat) (w : AccessWidth) : widthAllowed (placeAt off) w =
    decide ((w = .word ∧ (off < 0x028 ∨ (0x080 ≤ off ∧ off < 0x100))) ∨ (0x100 ≤ off ∧ off < 0x300)) := by
  unfold placeAt
  by_cases h1 : off < 0x028
  · rw [if_pos h1, widthAllowed_control _ (by omega), Bool.eq_iff_iff]
    simp [h1]; omega
  · rw [if_neg h1]
    by_cases h2 : off < Config.fieldBase
    · rw [if_pos h2]; change off < 0x80 at h2
      symm; rw [Bool.eq_iff_iff]; simp [widthAllowed]; omega
    · rw [if_neg h2]; change ¬ off < 0x80 at h2
      by_cases h3 : off < Config.inBase
      · rw [if_pos h3, widthAllowed_field]; change off < 0x100 at h3
        have e1 : (off < 40 ∨ 128 ≤ off ∧ off < 256) := by omega
        have e2 : ¬ (256 ≤ off ∧ off < 768) := by omega
        cases w <;> simp [e1, e2]
      · rw [if_neg h3]; change ¬ off < 0x100 at h3
        by_cases h4 : off < Config.outBase
        · rw [if_pos h4]; change off < 0x200 at h4
          rw [Bool.eq_iff_iff]; simp [widthAllowed]; omega
        · rw [if_neg h4]; change ¬ off < 0x200 at h4
          by_cases h5 : off < Config.outBase + Config.bufCap
          · rw [if_pos h5]; change off < 0x300 at h5
            rw [Bool.eq_iff_iff]; simp [widthAllowed]; omega
          · rw [if_neg h5]; change ¬ off < 0x300 at h5
            rw [Bool.eq_iff_iff]; simp [widthAllowed]; omega

/-- R63, R64, R65, R68: the model's check is the lawful access of the statements. -/
theorem accessAllowed_iff (off : BitVec 12) (w : AccessWidth) :
    accessAllowed off w = true ↔ LegalAccess off.toNat w := by
  unfold accessAllowed LegalAccess
  rw [widthAllowed_placeAt]; simp

theorem memWrite_of_legal {s : State} {off : BitVec 12} {w : AccessWidth} {v : Word32} (h : LegalAccess off.toNat w) :
    s.memWrite off w v = (s.writePlace off.toNat w.bytes v).reply { status := .ok, data := 0 } := by
  unfold State.memWrite; rw [if_pos ((accessAllowed_iff _ _).2 h)]

theorem readResponse_of_legal {s : State} {off : BitVec 12} {w : AccessWidth} (h : LegalAccess off.toNat w) :
    s.readResponse off w = ⟨.ok, s.readPlace off.toNat w.bytes⟩ := by
  unfold State.readResponse; rw [if_pos ((accessAllowed_iff _ _).2 h)]

/-! ## What one access keeps -/

/-- R284: no access changes the configuration or the agenda, and while a command runs none changes its operands. -/
theorem access_keep (s : State) (a : Access) :
    (s.access a).config = s.config ∧ (s.access a).agenda = s.agenda ∧
    (s.status.busy = true →
      (s.access a).status.busy = true ∧ (s.access a).latchedOp = s.latchedOp ∧ (s.access a).inLen = s.inLen ∧
      (s.access a).crcArg = s.crcArg ∧ (s.access a).msgId = s.msgId ∧ (s.access a).layout = s.layout ∧
      (s.access a).fields = s.fields ∧ (s.access a).mem = s.mem) := by
  cases a with
  | read off w => simp only [State.access]; rcases s.memRead_eq off w with h | h <;> simp [h]
  | write off w v =>
    simp only [State.access]
    rcases s.memWrite_eq off w v with ⟨_, h⟩ | ⟨_, h⟩
    · rw [h]
      rcases s.writePlace_cases off.toNat w.bytes v with h | h | ⟨_, h⟩ |
        ⟨hb, h | h | h | h | h | ⟨i, h⟩ | ⟨i, h⟩ | ⟨_, h⟩⟩ <;> simp_all
    · simp [h]

theorem placeAt_inBuffer (off : Nat) (h : placeAt off = .inBuffer) : 0x100 ≤ off ∧ off < 0x200 := by
  unfold placeAt at h
  split at h
  · exfalso; revert h; generalize off / 4 = k
    match k with
    | 0 | 1 | 2 | 3 | 4 | 5 | 6 | 7 | 8 | 9 => simp [controlRegister]
    | k + 10 => simp [controlRegister]
  · split at h
    · cases h
    · split at h
      · exfalso; revert h; unfold fieldRegister; split <;> simp
      · split at h
        · rename_i h1 h2; exact ⟨by have : ¬ off < 256 := h1; omega, h2⟩
        · split at h <;> cases h

end Sys2Proof.Machine
end

