-- ==== Sys2Proof/Laws/Codec.lean ====
section
/-! SUPPORT. The codec functions: byte order, the CRC as an injective map, the COBS walk over blocks, and the COBS
encoder's invariant. -/

namespace Sys2Proof.Machine

/-! ## Byte order (R9) -/

theorem leBytes_length (w : Nat) {n : Nat} (v : BitVec n) : (leBytes w v).length = w := by simp [leBytes]

theorem leBytes_eq_digits (w n : Nat) (v : BitVec n) :
    leBytes w v = (List.range w).map fun i => BitVec.ofNat 8 (v.toNat / 256 ^ i) := by
  apply List.map_congr_left
  intro i _
  apply BitVec.eq_of_toNat_eq
  simp [BitVec.extractLsb'_toNat, Nat.shiftRight_eq_div_pow, pow_mul]

theorem fromLe_lt (b : Bytes) : fromLe b < 256 ^ b.length := by
  induction b with
  | nil => simp [fromLe]
  | cons x b ih => have := x.isLt; simp only [fromLe, List.length_cons, pow_succ]; omega

theorem fromLe_digits (m : Nat) : ∀ (v : Nat),
    fromLe ((List.range m).map fun i => BitVec.ofNat 8 (v / 256 ^ i)) = v % 256 ^ m := by
  induction m with
  | zero => intro v; simp [fromLe, Nat.mod_one]
  | succ m ih =>
    intro v
    rw [List.range_succ_eq_map]
    simp only [List.map_cons, fromLe, List.map_map]
    have := ih (v / 256)
    have e : (List.range m).map ((fun i => BitVec.ofNat 8 (v / 256 ^ i)) ∘ Nat.succ) =
        (List.range m).map fun i => BitVec.ofNat 8 (v / 256 / 256 ^ i) := by
      apply List.map_congr_left; intro i _; simp [Nat.div_div_eq_div_mul, pow_succ, Nat.mul_comm]
    rw [e, this]
    simp [pow_succ]
    rw [Nat.mul_comm (256^m) 256, Nat.mod_mul]

theorem fromLe_leBytes (w : Nat) (v : BitVec (8*w)) : fromLe (leBytes w v) = v.toNat := by
  rw [leBytes_eq_digits, fromLe_digits, Nat.mod_eq_of_lt]
  have := v.isLt; rw [pow_mul] at this; exact this

theorem leBytes_fromLe (w : Nat) (b : Bytes) (h : b.length = w) : leBytes w (BitVec.ofNat (8*w) (fromLe b)) = b := by
  subst h
  rw [leBytes_eq_digits]
  have hlt := fromLe_lt b
  have : (BitVec.ofNat (8*b.length) (fromLe b)).toNat = fromLe b := by
    rw [BitVec.toNat_ofNat, Nat.mod_eq_of_lt]; rw [pow_mul]; exact hlt
  rw [this]
  clear this hlt
  induction b with
  | nil => rfl
  | cons x b ih =>
    rw [List.length_cons, List.range_succ_eq_map]
    simp only [List.map_cons, List.map_map, fromLe]
    have hx := x.isLt
    congr 1
    · apply BitVec.eq_of_toNat_eq; simp; omega
    · conv => rhs; rw [← ih]
      apply List.map_congr_left; intro i _
      simp only [Function.comp, Nat.succ_eq_add_one, pow_succ]
      rw [Nat.mul_comm (256^i) 256, ← Nat.div_div_eq_div_mul]
      congr 2
      omega

/-! ## CRC (R110, R114) -/

theorem trailingCrc_le16 (c : Word16) : trailingCrc (c.extractLsb' 0 8) (c.extractLsb' 8 8) = c := by
  unfold trailingCrc
  apply BitVec.eq_of_getLsbD_eq
  intro i hi
  simp only [BitVec.getLsbD_or, BitVec.getLsbD_shiftLeft, BitVec.getLsbD_setWidth, BitVec.getLsbD_extractLsb']
  by_cases h1 : i < 8
  · simp [h1, hi]
  · simp [h1, hi, show i - 8 < 8 by omega, show i - 8 < 16 by omega, show 8 + (i - 8) = i by omega]

theorem trailingCrc_bytes (lo hi : Byte) :
    (trailingCrc lo hi).extractLsb' 0 8 = lo ∧ (trailingCrc lo hi).extractLsb' 8 8 = hi := by
  constructor
  · apply BitVec.eq_of_getLsbD_eq
    intro i h
    simp [trailingCrc, h, show i < 16 by omega]
  · apply BitVec.eq_of_getLsbD_eq
    intro i h
    simp [trailingCrc, h, show 8 + i < 16 by omega]

theorem crcBit_injective (a b : Word16) (h : crcBit a = crcBit b) : a = b := by
  have key : ∀ x : Word16, (crcBit x).getLsbD 0 = x.msb := by
    intro x; unfold crcBit; split <;> rename_i hm <;> simp_all [Config.crcPoly]
  have hm : a.msb = b.msb := by rw [← key a, ← key b, h]
  have h2 : a <<< 1 = b <<< 1 := by
    unfold crcBit at h
    rw [hm] at h
    split at h
    · exact (BitVec.xor_left_inj _).1 h
    · exact h
  apply BitVec.eq_of_getLsbD_eq
  intro i hi
  by_cases h15 : i = 15
  · subst h15; simpa [BitVec.msb_eq_getLsbD_last] using hm
  · have := congrArg (fun v => BitVec.getLsbD v (i+1)) h2
    simp only [BitVec.getLsbD_shiftLeft] at this
    simpa [show i + 1 < 16 by omega, BitVec.getLsbD_eq_getElem hi] using this

/-- R110: a register sum goes through one bit of the division as the sum of a shift-register step and a shift. -/
theorem crcBit_xor (c y : Word16) : crcBit (c ^^^ y) = crcShift c y.msb ^^^ (y <<< 1) := by
  unfold crcBit crcShift
  rw [BitVec.msb_xor, BitVec.shiftLeft_xor_distrib]
  cases c.msb <;> cases y.msb <;> simp [Config.crcPoly, BitVec.xor_assoc]
  all_goals exact BitVec.xor_comm _ _

theorem crcBit8_injective (a b : Word16)
    (h : crcBit (crcBit (crcBit (crcBit (crcBit (crcBit (crcBit (crcBit a))))))) =
      crcBit (crcBit (crcBit (crcBit (crcBit (crcBit (crcBit (crcBit b)))))))) : a = b := by
  iterate 8 apply crcBit_injective
  exact h

theorem crcByte_injective_register (a b : Word16) (x : Byte) (h : crcByte a x = crcByte b x) : a = b := by
  unfold crcByte at h
  have := crcBit8_injective _ _ h
  exact (BitVec.xor_left_inj _).1 this

theorem crcByte_injective_byte (a : Word16) (x y : Byte) (h : crcByte a x = crcByte a y) : x = y := by
  unfold crcByte at h
  have := crcBit8_injective _ _ h
  have := (BitVec.xor_right_inj _).1 this
  apply BitVec.eq_of_getLsbD_eq
  intro i hi
  have := congrArg (fun v => BitVec.getLsbD v (i+8)) this
  simpa [hi, show i + 8 < 16 by omega, show i < 16 by omega] using this

/-! ## COBS (R140 to R142) -/

/-- R152, at any point of the walk. -/
theorem cobsWalk_length (strict : Bool) : ∀ (e : Bytes) (owed : Bool) (need : Nat) (r : Bytes),
    cobsWalk strict owed need e = .ok r →
    r.length + (if owed then 0 else if need = 0 ∧ e ≠ [] then 1 else 0) ≤ e.length := by
  intro e
  induction e with
  | nil => intro owed need r h; cases need <;> simp [cobsWalk] at h; subst h; simp
  | cons b e ih =>
    intro owed need r h
    cases need with
    | zero =>
      simp only [cobsWalk] at h
      split at h
      · cases h
      · split at h
        · rename_i out hw
          cases h
          have := ih _ _ _ hw
          cases owed <;> simp at this ⊢ <;> split at this <;> omega
        · cases h
    | succ need =>
      simp only [cobsWalk] at h
      split at h
      · cases h
      · split at h
        · rename_i out hw
          cases h
          have := ih _ _ _ hw
          cases owed <;> simp at this ⊢ <;> omega
        · cases h

/-- R142: the walk copies the data bytes of a block. -/
theorem cobsWalk_data (strict : Bool) (d : Bytes) (hs : strict = true → (0 : Byte) ∉ d) (owed : Bool) (m : Nat)
    (rest : Bytes) : cobsWalk strict owed (d.length + m) (d ++ rest) =
      (match cobsWalk strict owed m rest with | .ok o => .ok (d ++ o) | .error e => .error e) := by
  induction d with
  | nil => simp; cases cobsWalk strict owed m rest <;> rfl
  | cons b d ih =>
    have hs' : strict = true → (0 : Byte) ∉ d := fun h => fun hm => hs h (List.mem_cons_of_mem _ hm)
    have hb : ¬ (b = 0x00 ∧ strict = true) := fun ⟨h1, h2⟩ => hs h2 (by rw [h1]; exact List.mem_cons_self)
    rw [List.length_cons, show d.length + 1 + m = (d.length + m) + 1 by omega, List.cons_append]
    simp only [cobsWalk]
    rw [if_neg hb, ih hs']
    cases cobsWalk strict owed m rest <;> rfl

theorem cobsBlock_code (d : Bytes) (h : d.length ≤ 254) : (BitVec.ofNat 8 (d.length+1)).toNat = d.length + 1 := by
  simp; omega

/-- R142: the walk over one whole block. -/
theorem cobsWalk_block (strict : Bool) (d : Bytes) (hl : d.length ≤ 254) (hs : strict = true → (0 : Byte) ∉ d)
    (owed : Bool) (rest : Bytes) : cobsWalk strict owed 0 (cobsBlock d ++ rest) =
      (match cobsWalk strict (decide (d.length < 254)) 0 rest with
       | .ok o => .ok ((if owed then [0] else []) ++ d ++ o)
       | .error e => .error e) := by
  simp only [cobsBlock, List.cons_append, cobsWalk]
  have hc := cobsBlock_code d hl
  have hne : ¬ BitVec.ofNat 8 (d.length+1) = 0x00 := fun h => by
    have := congrArg BitVec.toNat h
    rw [hc] at this
    simp at this
  rw [if_neg hne, hc]
  have := cobsWalk_data strict d hs (decide (d.length + 1 < Config.cobsMaxCode)) 0 rest
  simp only [Nat.add_zero] at this
  rw [show d.length + 1 - 1 = d.length by omega, this]
  have e : decide (d.length + 1 < Config.cobsMaxCode) = decide (d.length < 254) := by
    simp only [Config.cobsMaxCode, decide_eq_decide]; omega
  rw [e]
  cases cobsWalk strict (decide (d.length < 254)) 0 rest with
  | ok o => cases owed <;> simp
  | error e => rfl

/-- R141: the encoder has closed some blocks and is inside one; its input so far is their data with a zero between
each two. -/
theorem cobsPut_invariant (d : Bytes) : ∀ (ds : List Bytes) (cur : Bytes),
    (∀ x ∈ ds, (0 : Byte) ∉ x) → (0 : Byte) ∉ cur → cur.length + d.length ≤ 250 →
    ∃ (ds' : List Bytes) (cur' : Bytes),
      d.foldl cobsPut { out := cobsBlocks ds ++ 0 :: cur, ci := (cobsBlocks ds).length, code := cur.length + 1 } =
        { out := cobsBlocks ds' ++ 0 :: cur', ci := (cobsBlocks ds').length, code := cur'.length + 1 } ∧
      (∀ x ∈ ds', (0 : Byte) ∉ x) ∧ (0 : Byte) ∉ cur' ∧
      List.intercalate [0] (ds' ++ [cur']) = List.intercalate [0] (ds ++ [cur]) ++ d := by
  induction d with
  | nil => intro ds cur h1 h2 h3; exact ⟨ds, cur, rfl, h1, h2, by simp⟩
  | cons b d ih =>
    intro ds cur h1 h2 h3
    simp only [List.length_cons] at h3
    rw [List.foldl_cons]
    by_cases hb : b = 0
    · subst hb
      have e : cobsPut { out := cobsBlocks ds ++ 0 :: cur, ci := (cobsBlocks ds).length, code := cur.length + 1 } 0 =
          { out := cobsBlocks (ds ++ [cur]) ++ [0], ci := (cobsBlocks (ds ++ [cur])).length, code := 0 + 1 } := by
        simp [cobsPut, cobsNextBlock, cobsPatch, cobsBlocks, cobsBlock]
      rw [e]
      obtain ⟨ds', cur', a1, a2, a3, a4⟩ := ih (ds ++ [cur]) []
        (by simpa [or_imp, forall_and] using ⟨h1, h2⟩) (by simp) (by simp; omega)
      refine ⟨ds', cur', a1, a2, a3, ?_⟩
      rw [a4]
      have : ∀ (l : List Bytes) (c : Bytes), List.intercalate [0] (l ++ [c] ++ [[]]) =
          List.intercalate [0] (l ++ [c]) ++ [0] := by
        intro l c
        induction l with
        | nil => simp [List.intercalate]
        | cons x l ih => cases l <;> simp [List.intercalate] at ih ⊢ <;> simp [ih]
      rw [this]; simp
    · have e : cobsPut { out := cobsBlocks ds ++ 0 :: cur, ci := (cobsBlocks ds).length, code := cur.length + 1 } b =
          { out := cobsBlocks ds ++ 0 :: (cur ++ [b])
            ci := (cobsBlocks ds).length
            code := (cur ++ [b]).length + 1 } := by
        simp only [cobsPut, if_neg (show ¬ b = 0x00 from hb), Config.cobsMaxCode]
        rw [if_neg (by omega)]
        simp
      rw [e]
      obtain ⟨ds', cur', a1, a2, a3, a4⟩ := ih ds (cur ++ [b]) h1
        (by simp only [List.mem_append, List.mem_singleton, not_or]; exact ⟨h2, fun h => hb (Eq.symm h)⟩)
        (by simp; omega)
      refine ⟨ds', cur', a1, a2, a3, ?_⟩
      rw [a4]
      have : ∀ (l : List Bytes) (c : Bytes), List.intercalate [0] (l ++ [c ++ [b]]) =
          List.intercalate [0] (l ++ [c]) ++ [b] := by
        intro l c
        induction l with
        | nil => simp [List.intercalate]
        | cons x l ih => cases l <;> simp [List.intercalate] at ih ⊢ <;> simp [ih]
      rw [this]; simp

end Sys2Proof.Machine
end

