-- ==== Sys2Proof/Laws/PerInstr.lean ====
section
/-! SUPPORT. Facts about every instruction as syntax, one lemma per constructor. -/

namespace Sys2Proof.Laws.TidyEncoding

/-- R90, R93: an instruction's command word is one that careful software writes: its ignored bits are 0 and its opcode
is assigned. -/
def Statement (i : Instr) : Prop := i.wellFormed = true ∧ wordWellFormed (encodeWord i) = true

theorem crcCalc : Statement .crcCalc := by unfold Statement; decide
theorem crcUpdate : Statement .crcUpdate := by unfold Statement; decide
theorem crcVerify : Statement .crcVerify := by unfold Statement; decide
theorem crcAppend : Statement .crcAppend := by unfold Statement; decide
theorem crcCheckStrip : Statement .crcCheckStrip := by unfold Statement; decide
theorem cobsEncode : Statement .cobsEncode := by unfold Statement; decide
theorem cobsDecode : Statement .cobsDecode := by unfold Statement; decide
theorem cobsFrame : Statement .cobsFrame := by unfold Statement; decide
theorem cobsUnframe : Statement .cobsUnframe := by unfold Statement; decide
theorem msgPack : Statement .msgPack := by unfold Statement; decide
theorem msgUnpack : Statement .msgUnpack := by unfold Statement; decide
theorem msgIsResponse : Statement .msgIsResponse := by unfold Statement; decide
theorem msgGetRequestId : Statement .msgGetRequestId := by unfold Statement; decide
theorem msgClassify : Statement .msgClassify := by unfold Statement; decide
theorem structPack : Statement .structPack := by unfold Statement; decide
theorem structUnpack : Statement .structUnpack := by unfold Statement; decide
theorem txFrame : Statement .txFrame := by unfold Statement; decide
theorem rxFrame : Statement .rxFrame := by unfold Statement; decide

end Sys2Proof.Laws.TidyEncoding
end

