-- ==== Sys2Proof/Tests/Slice0.lean ====
section
/-! SUPPORT. The author's tests. Expected values come from the spec: the opcode map of 30_encoding.md R92 and the
vectors of 95_test_vectors.md, whose number each test cites. The `witness_` theorems show for each statement a state
and operands that meet its hypotheses, clause by clause, at the ends of their ranges. -/

namespace Sys2Proof.Tests

open Sys2Proof Sys2Proof.Machine

/-! ## Small states -/

/-- `IN[0..)` is `bs` and IN_LEN its length. -/
def loaded (bs : Bytes) : State :=
  { State.reset with mem := Memory.writeBytes [] 0x100 bs, inLen := BitVec.ofNat 9 bs.length }

/-- IN_LEN is `n`, IN unspecified. -/
def sized (n : Nat) : State := { State.reset with inLen := BitVec.ofNat 9 n }

/-- MSG_ID is `id`. -/
def named (id : Byte) (s : State) : State := { s with msgId := id }

/-- The command in LATCHED_OP is busy, and the agenda is `es`. -/
def busyWith (op : BitVec 5) (es : List Event) : State :=
  { State.reset with status := Status.accepted State.reset.status, latchedOp := op, agenda := es }

/-- The agenda is `es`, the block idle. -/
def idleWith (es : List Event) : State := { State.reset with agenda := es }

/-- The illustrative layout EX of 43_struct.md section 3. -/
def layoutEx : Layout :=
  { fields := [{ width := .one, signed := false, kind := .enum [0x00, 0x01, 0x02] },
      { width := .two, signed := true, kind := .int }, { width := .four, signed := false, kind := .int },
      { width := .one, signed := true, kind := .int }, { width := .one, signed := false, kind := .flags 0x07 }]
    atMost16 := by decide }

/-- A layout of one signed two-byte field. -/
def layoutOne : Layout := { fields := [{ width := .two, signed := true, kind := .int }], atMost16 := by decide }

/-- `LAYOUTS[0]` is `l`, every other slot ABSENT. -/
def layoutsOf (l : Option Layout) : Vector (Option Layout) 16 := (Vector.replicate 16 none).set 0 l

/-- A build with the layout `l` in slot 0 and the two policy flags. -/
def built (l : Option Layout) (strict reject : Bool) (s : State) : State :=
  { s with config := { layouts := layoutsOf l, strictZero := strict, rejectTrailing := reject } }

/-- The FIELD registers hold the values `vs`. -/
def holding (vs : List Word64) (s : State) : State := { s with fields := writeFields s.fields vs }

/-- The state the command leaves. -/
def after (i : Instr) (s : State) : State :=
  match exec i s with
  | .next t => t
  | _ => s

/-- `OUT[0..OUT_LEN)`. -/
def outOf (t : State) : List (Option Byte) := (List.range t.outLen.toNat).map fun j => t.mem.read? (0x200 + j)

/-- The state one access leaves. -/
def wrote (s : State) (off : BitVec 12) (v : Word32) : State := s.memWrite off .word v

theorem after_spec (i : Instr) (s : State) : exec i s = .next (after i s) := by
  unfold after
  rw [exec_eq_complete]

/-! ## Well-formedness: an ill-formed word for each check -/

theorem test_ignored_bits_set_is_ill_formed : upperBitsZero 0x00000021 = false ∧ wordWellFormed 0x00000021 = false := by
  decide

theorem test_reserved_opcode_is_ill_formed : opcodeAssigned 0x00000006 = false ∧ wordWellFormed 0x00000006 = false := by
  decide

theorem test_every_command_is_well_formed : Instr.wellFormed .rxFrame = true ∧ wordWellFormed 0x0000001D = true := by
  decide

/-! ## Decoding: every constructor from its word, R90 and R92 -/

theorem test_decode_crc :
    decodeTableWord 32 0b00000000000000000000000000000001 = some .crcCalc ∧
    decodeTableWord 32 0b00000000000000000000000000000010 = some .crcUpdate ∧
    decodeTableWord 32 0b00000000000000000000000000000011 = some .crcVerify ∧
    decodeTableWord 32 0b00000000000000000000000000000100 = some .crcAppend ∧
    decodeTableWord 32 0b00000000000000000000000000000101 = some .crcCheckStrip := by decide

theorem test_decode_cobs :
    decodeTableWord 32 0b00000000000000000000000000001000 = some .cobsEncode ∧
    decodeTableWord 32 0b00000000000000000000000000001001 = some .cobsDecode ∧
    decodeTableWord 32 0b00000000000000000000000000001010 = some .cobsFrame ∧
    decodeTableWord 32 0b00000000000000000000000000001011 = some .cobsUnframe := by decide

theorem test_decode_message :
    decodeTableWord 32 0b00000000000000000000000000010000 = some .msgPack ∧
    decodeTableWord 32 0b00000000000000000000000000010001 = some .msgUnpack ∧
    decodeTableWord 32 0b00000000000000000000000000010010 = some .msgIsResponse ∧
    decodeTableWord 32 0b00000000000000000000000000010011 = some .msgGetRequestId ∧
    decodeTableWord 32 0b00000000000000000000000000010100 = some .msgClassify := by decide

theorem test_decode_struct_and_frame :
    decodeTableWord 32 0b00000000000000000000000000011000 = some .structPack ∧
    decodeTableWord 32 0b00000000000000000000000000011001 = some .structUnpack ∧
    decodeTableWord 32 0b00000000000000000000000000011100 = some .txFrame ∧
    decodeTableWord 32 0b00000000000000000000000000011101 = some .rxFrame := by decide

/-- V-CMD-04: bits 31:5 are ignored. -/
theorem test_decode_ignores_upper_bits : decodeTableWord 32 0xFFFFFFE1 = some .crcCalc := by decide

/-- R93: each of the 14 reserved opcodes is rejected by name. -/
theorem test_decode_rejects_reserved :
    reservedOpcodes.length = 14 ∧ ∀ op ∈ reservedOpcodes, decodeTableWord 32 op.toNat = none := by decide

theorem test_decode_rejects_by_name : decodeWord 0x00000006 = .error (.reservedOpcode 0x06) := rfl

theorem test_decode_rejects_short : decodeBytes [0x01, 0x00, 0x00] = .error (.truncated 3) := rfl

/-! ## Commands -/

/-- V-CRC-03, V-CRC-20 (STATUS). -/
theorem test_crcCalc : (after .crcCalc (loaded [0x41])).crcRes = .value 0xB915 ∧
    (after .crcCalc (loaded [0x41])).status.word = 0x00000002 := by decide

/-- V-CRC-22: IN_LEN = 257. -/
theorem test_crcCalc_oversize : (after .crcCalc (sized 257)).status.word = 0x00000102 ∧
    (after .crcCalc (sized 257)).crcRes = .unspecified := by decide

set_option maxRecDepth 4000 in
/-- V-CRC-23, V-CRC-24. -/
theorem test_crcUpdate :
    (after .crcUpdate { sized 0 with crcArg := 0x1234 }).crcRes = .value 0x1234 ∧
    (after .crcUpdate { loaded [0x35, 0x36, 0x37, 0x38, 0x39] with crcArg := 0x5349 }).crcRes = .value 0x29B1 := by
  decide

/-- V-CRC-13 and V-CRC-25 (STATUS): the CRC of nothing is 0xFFFF. -/
theorem test_crcVerify_match :
    (after .crcVerify { sized 0 with crcArg := 0xFFFF }).status.word = 0x00000006 := by decide

/-- V-CRC-26: a mismatch is no error. -/
theorem test_crcVerify_mismatch :
    (after .crcVerify { loaded [0x41] with crcArg := 0x15B9 }).status.word = 0x00000002 := by decide

/-- V-CRC-03 and R113: the low byte first. -/
theorem test_crcAppend : outOf (after .crcAppend (loaded [0x41])) = [some 0x41, some 0x15, some 0xB9] := by decide

/-- V-CRC-28: IN_LEN = 255. -/
theorem test_crcAppend_oversize : (after .crcAppend (sized 255)).status.err = 1 := by decide

/-- V-CRC-30. -/
theorem test_crcCheckStrip :
    (after .crcCheckStrip (loaded [0xFF, 0xFF])).outLen = 0 ∧
    (after .crcCheckStrip (loaded [0xFF, 0xFF])).crcRes = .value 0xFFFF ∧
    (after .crcCheckStrip (loaded [0xFF])).status.word = 0x00000602 := by decide

/-- The CRC of "A" is 0xB915 (V-CRC-03). -/
theorem test_crcCheckStrip_order :
    outOf (after .crcCheckStrip (loaded [0x41, 0x15, 0xB9])) = [some 0x41] ∧
    (after .crcCheckStrip (loaded [0x41, 0xB9, 0x15])).status.err = 6 := by decide

/-- V-COBS-E03, V-COBS-E07. -/
theorem test_cobsEncode :
    outOf (after .cobsEncode (loaded [0x01, 0x00, 0x02])) = [some 0x02, some 0x01, some 0x02, some 0x02] ∧
    outOf (after .cobsEncode (loaded [0x11, 0x00, 0x00, 0x00])) =
      [some 0x02, some 0x11, some 0x01, some 0x01, some 0x01] := by decide

/-- V-COBS-D08, V-COBS-D11: the two values of P_STRICT_ZERO. -/
theorem test_cobsDecode_strict :
    outOf (after .cobsDecode (built none false false (loaded [0x02, 0x00, 0x01]))) = [some 0x00, some 0x00] ∧
    (after .cobsDecode (built none true false (loaded [0x02, 0x00, 0x01]))).status.err = 4 ∧
    (after .cobsDecode (built none true false (loaded [0x03, 0x01, 0x00, 0x00]))).status.err = 4 := by decide

/-- V-COBS-D04, V-COBS-D06, V-COBS-D10. -/
theorem test_cobsDecode :
    (after .cobsDecode (loaded [0x03, 0x01, 0x02, 0x00])).status.err = 2 ∧
    (after .cobsDecode (loaded [0x05, 0x01, 0x02])).status.err = 3 ∧
    outOf (after .cobsDecode (loaded [0x03, 0x01, 0x02])) = [some 0x01, some 0x02] := by decide

/-- V-COBS-U01, V-COBS-U02. -/
theorem test_cobsFrame :
    outOf (after .cobsFrame (loaded [0x01, 0x02, 0x03])) = [some 0x04, some 0x01, some 0x02, some 0x03, some 0x00] ∧
    outOf (after .cobsFrame (loaded [])) = [some 0x01, some 0x00] := by decide

/-- V-COBS-U05, V-COBS-U06, V-COBS-U09. -/
theorem test_cobsUnframe :
    (after .cobsUnframe (loaded [0x01])).status.err = 5 ∧ outOf (after .cobsUnframe (loaded [0x00])) = [] ∧
    (after .cobsUnframe (loaded [0x03, 0x01, 0x02, 0x00, 0x00])).status.err = 2 := by decide

/-- V-MSG-01. -/
theorem test_msgPack :
    outOf (after .msgPack (named 0x10 (loaded [0x01, 0x02, 0x03]))) =
      [some 0x10, some 0x03, some 0x01, some 0x02, some 0x03] := by decide

/-- V-MSG-14: the two values of P_REJECT_TRAILING. -/
theorem test_msgUnpack :
    outOf (after .msgUnpack (built none false false (loaded [0x10, 0x01, 0xAA, 0xBB]))) = [some 0xAA] ∧
    (after .msgUnpack (built none false true (loaded [0x10, 0x01, 0xAA, 0xBB]))).status.err = 9 := by decide

/-- V-MSG-10, V-MSG-13, V-MSG-15. -/
theorem test_msgUnpack_errors :
    (after .msgUnpack (loaded [0x10])).status.err = 7 ∧
    (after .msgUnpack (loaded [0x10, 0x03, 0x01, 0x02])).status.err = 8 ∧
    (after .msgUnpack (loaded [0x85, 0x02, 0x09, 0x08])).resId = .value 0x85 ∧
    (after .msgUnpack (loaded [0x85, 0x02, 0x09, 0x08])).resLen = .value 0x02 := by decide

/-- 95_test_vectors.md section 4, command level. -/
theorem test_msgIsResponse : (after .msgIsResponse (named 0x85 (sized 300))).status.word = 0x00000006 := by decide

/-- 95_test_vectors.md section 4, command level. -/
theorem test_msgGetRequestId : (after .msgGetRequestId (named 0x85 (sized 0))).resId = .value 0x05 ∧
    (after .msgGetRequestId (named 0x85 (sized 0))).status.word = 0x00000002 := by decide

/-- 95_test_vectors.md section 4, command level, and V-MSG-27. -/
theorem test_msgClassify : (after .msgClassify (named 0x90 (sized 0))).resId = .value 0x01 ∧
    (after .msgClassify (named 0x90 (sized 0))).status.bool = true ∧
    (after .msgClassify (named 0x50 (sized 0))).resId = .value 0x04 := by decide

/-- V-ST-01, V-ST-06. -/
theorem test_structPack :
    outOf (after .structPack (built (some layoutEx) false false (holding [1, -2, 0x12345678, -128, 5] State.reset))) =
      [some 0x01, some 0xFE, some 0xFF, some 0x78, some 0x56, some 0x34, some 0x12, some 0x80, some 0x05] ∧
    (after .structPack
      (built (some layoutEx) false false (holding [0x100, 0, 0, 0, 0] State.reset))).status.err = 12 := by decide

/-- V-ST-16. -/
theorem test_structPack_absent : (after .structPack (built none false false State.reset)).status.word = 0x00000D02 := by
  decide

/-- V-ST-10, fields 1 and 3 (sign-extended). -/
theorem test_structUnpack :
    let t := after .structUnpack (built (some layoutEx) false false
      (loaded [0x01, 0xFE, 0xFF, 0x78, 0x56, 0x34, 0x12, 0x80, 0x05, 0xEE]))
    t.fields[1] = FieldReg.ofValue 0xFFFFFFFFFFFFFFFE ∧ t.fields[3] = FieldReg.ofValue 0xFFFFFFFFFFFFFF80 ∧
      t.fields[5] = State.reset.fields[5] := by decide

/-- V-ST-11, V-ST-13, V-ST-17. -/
theorem test_structUnpack_errors :
    (after .structUnpack (built (some layoutEx) false false
      (loaded [0x01, 0xFE, 0xFF, 0x78, 0x56, 0x34, 0x12, 0x80]))).status.err = 10 ∧
    (after .structUnpack (built (some layoutEx) false false
      (loaded [0x01, 0xFE, 0xFF, 0x78, 0x56, 0x34, 0x12, 0x80, 0xF8]))).status.err = 11 ∧
    (after .structUnpack (built none false false (sized 300))).status.err = 1 := by decide

set_option maxRecDepth 4000 in
/-- V-TX-02. -/
theorem test_txFrame : outOf (after .txFrame (named 0x01 (loaded []))) =
      [some 0x02, some 0x01, some 0x03, some 0x3E, some 0x2E, some 0x00] ∧
    (after .txFrame (named 0x01 (loaded []))).crcRes = .value 0x2E3E := by decide

set_option maxRecDepth 4000 in
/-- V-RX-07: the two values of P_REJECT_TRAILING. -/
theorem test_rxFrame :
    outOf (after .rxFrame (built none false false (loaded [0x07, 0x10, 0x01, 0xAA, 0xBB, 0x52, 0x4C, 0x00]))) =
      [some 0xAA] ∧
    (after .rxFrame (built none false true (loaded [0x07, 0x10, 0x01, 0xAA, 0xBB, 0x52, 0x4C, 0x00]))).status.err =
      9 := by decide

set_option maxRecDepth 4000 in
/-- V-RX-04, V-RX-06, V-RX-08, V-RX-09. -/
theorem test_rxFrame_errors :
    (after .rxFrame (loaded [0x03, 0xFF, 0xFF, 0x00])).status.err = 7 ∧
    (after .rxFrame (loaded [0x06, 0x10, 0x05, 0x01, 0x2B, 0x60, 0x00])).status.err = 8 ∧
    (after .rxFrame (loaded [0x04, 0x01, 0x02, 0x03])).status.err = 5 ∧
    (after .rxFrame (loaded [0x01, 0x00, 0x01, 0x00])).status.err = 2 := by decide

/-! ## The bus and the protocol -/

/-- V-CMD-05: HAZ is kept by an acceptance. -/
theorem test_accept_keeps_hazard :
    (wrote State.reset 0x000 0x00000001).status.word = 0x00000001 ∧
    (wrote State.reset.dropWrite 0x000 0x00000001).status.word = 0x00000009 := by decide

/-- V-MEM-06, V-MEM-08, V-MEM-09, V-MEM-11. -/
theorem test_register_writes :
    (wrote State.reset 0x014 0x00001234).crcRes = .value 0 ∧ (wrote State.reset 0x010 0xFFFFABCD).crcArg = 0xABCD ∧
    (wrote State.reset 0x008 0xFFFFFFFF).inLen = 0x1FF ∧
    (wrote State.reset.dropWrite 0x004 0xFFFFFFF7).status.haz = true ∧
    (wrote State.reset.dropWrite 0x004 0x00000008).status.haz = false := by decide

/-- V-MEM-01, V-MEM-02. -/
theorem test_buffer_is_little_endian :
    ((wrote State.reset 0x100 0x34333231).readResponse 0x102 .half).data = 0x00003433 ∧
    (((wrote State.reset 0x100 0x34333231).memWrite 0x102 .half 0x0000BEEF).readResponse 0x100 .word).data =
      0xBEEF3231 := by decide

/-- V-MEM-03, V-MEM-04, V-MEM-05, V-MEM-07. -/
theorem test_bus_errors :
    State.reset.readResponse 0x102 .word = { status := .error, data := 0 } ∧
    State.reset.readResponse 0x004 .half = { status := .error, data := 0 } ∧
    State.reset.readResponse 0x028 .word = { status := .error, data := 0 } ∧
    State.reset.readResponse 0x300 .word = { status := .error, data := 0 } ∧
    State.reset.readResponse 0x000 .word = { status := .ok, data := 0 } := by decide

/-- V-MEM-10. -/
theorem test_field_halves :
    (wrote (wrote State.reset 0x080 0x89ABCDEF) 0x084 0x01234567).fieldValue 0 = 0x0123456789ABCDEF := by decide

/-- R98 `SETIN` and `CMD`: the accesses they stand for. -/
theorem test_host_program :
    setIn [0x31, 0x32, 0x33, 0x34, 0x35] =
      [.host (.write 0x100 .word 0x34333231), .host (.write 0x104 .byte 0x00000035),
       .host (.write 0x008 .word 0x00000005)] ∧
    cmd .txFrame = .host (.write 0x000 .word 0x0000001C) := by decide

/-! ## Witnesses of the statements' hypotheses -/

theorem witness_DecodeAndEncodeAgree :
    Instr.wellFormed .crcCalc = true ∧ Instr.wellFormed .rxFrame = true ∧
    (0xFFFFFFE1 : Word32).extractLsb' 0 5 = Instr.opcode .crcCalc ∧
    (0xFFFFFFE0 : Word32).extractLsb' 0 5 ∈ reservedOpcodes := by decide

theorem witness_StepGivesEachAgentItsTurn :
    ((busyWith 0x1D [.engine]).status.busy = true ∧ decodeOp (busyWith 0x1D [.engine]).latchedOp = .ok .rxFrame ∧
      (busyWith 0x1D [.engine]).agenda = [.engine]) ∧
    ((busyWith 0x01 []).status.busy = true ∧ decodeOp (busyWith 0x01 []).latchedOp = .ok .crcCalc ∧
      (busyWith 0x01 []).agenda = []) ∧
    ((busyWith 0x00 [.engine]).status.busy = true ∧ (busyWith 0x00 [.engine]).latchedOp ∈ reservedOpcodes ∧
      (busyWith 0x00 [.engine]).agenda = [.engine]) ∧
    ((busyWith 0x1F []).status.busy = true ∧ (busyWith 0x1F []).latchedOp ∈ reservedOpcodes ∧
      (busyWith 0x1F []).agenda = []) ∧
    (idleWith [r32 0x004]).agenda = [.host (.read 0x004 .word)] ∧
    (busyWith 0x1D [.reset, .engine]).agenda = .reset :: [.engine] ∧
    ((idleWith [.engine]).status.busy = false ∧ (idleWith [.engine]).agenda = [.engine]) ∧
    ((idleWith []).status.busy = false ∧ (idleWith []).agenda = []) :=
  ⟨⟨rfl, rfl, rfl⟩, ⟨rfl, rfl, rfl⟩, ⟨rfl, by decide, rfl⟩, ⟨rfl, by decide, rfl⟩, rfl, rfl, ⟨rfl, rfl⟩, ⟨rfl, rfl⟩⟩

theorem witness_CmdWriteAcceptsCommand :
    ((idleWith [cmd .rxFrame]).agenda = [.host (.write 0x000 .word 0x0000001D)] ∧
      (idleWith [cmd .rxFrame]).status.busy = false) ∧
    ((busyWith 0x01 [cmd .rxFrame]).agenda = [.host (.write 0x000 .word 0x0000001D)] ∧
      (busyWith 0x01 [cmd .rxFrame]).status.busy = true) ∧
    ((idleWith [w32 0x000 0x0000001F]).agenda = [.host (.write 0x000 .word 0x0000001F)] ∧
      (idleWith [w32 0x000 0x0000001F]).status.busy = false ∧
      (0x0000001F : Word32).extractLsb' 0 5 ∈ reservedOpcodes ∧
      ∃ t : State, step (idleWith [w32 0x000 0x0000001F]) = .next t) :=
  ⟨⟨rfl, rfl⟩, ⟨rfl, rfl⟩, ⟨rfl, rfl, by decide, ⟨_, rfl⟩⟩⟩

theorem witness_ReservedOpcodeCompletesIllegalOp :
    ((busyWith 0x00 [.engine]).status.busy = true ∧ (busyWith 0x00 [.engine]).latchedOp ∈ reservedOpcodes ∧
      (busyWith 0x00 [.engine]).agenda = [.engine]) ∧
    ((busyWith 0x1F []).status.busy = true ∧ (busyWith 0x1F []).latchedOp ∈ reservedOpcodes ∧
      (busyWith 0x1F []).agenda = []) :=
  ⟨⟨rfl, by decide, rfl⟩, ⟨rfl, by decide, rfl⟩⟩

theorem witness_ResetGivesResetValues :
    (busyWith 0x1D [.reset, .engine]).agenda = .reset :: [.engine] ∧
    ∃ t : State, step (busyWith 0x1D [.reset, .engine]) = .next t ∧ t.agenda = .engine :: [] :=
  ⟨rfl, ⟨_, rfl, rfl⟩⟩

/-- A busy block, not the reset state, meets the invariant and takes a step. -/
theorem witness_EveryStepKeepsBlockInvariant :
    BlockInvariant (busyWith 0x1D [.engine]) ∧ ∃ t : State, step (busyWith 0x1D [.engine]) = .next t := by
  refine ⟨⟨by decide, by decide, by decide, by decide, by decide, by decide, ?_⟩, ⟨_, rfl⟩⟩
  exact ⟨List.Pairwise.nil, fun c h => by cases h⟩

theorem witness_ConfigurationNeverChanges :
    ∃ t : State, Host.Core.run Sys2Proof.core 2 (busyWith 0x1D [.engine, .reset]) = .next t := ⟨_, rfl⟩

theorem witness_BusyCommandOperandsAreStable :
    (busyWith 0x1D [w32 0x008 0x3, .engine]).status.busy = true ∧
    (busyWith 0x1D [w32 0x008 0x3, .engine]).agenda =
      [Access.write 0x008 .word 0x3].map Event.host ++ .engine :: [] := ⟨rfl, rfl⟩

theorem witness_PollingHostNeverSetsHazard :
    (polite (idleWith [cmd .crcCalc, r32 0x004, .engine, r32 0x014]).status.busy
        (idleWith [cmd .crcCalc, r32 0x004, .engine, r32 0x014]).agenda = true ∧
      (idleWith [cmd .crcCalc, r32 0x004, .engine, r32 0x014]).status.haz = false) ∧
    ∃ t : State, Host.Core.run Sys2Proof.core 1 (idleWith [cmd .crcCalc, r32 0x004, .engine, r32 0x014]) = .next t ∧
      t.status.busy = true ∧ t.agenda = .host (.read 0x004 .word) :: [.engine, r32 0x014] :=
  ⟨⟨by decide, rfl⟩, ⟨_, rfl, rfl, rfl⟩⟩

/-- Two states that differ in CRC_RES, OUT_LEN and STATUS give the same operands; every clause's command is named. -/
theorem witness_ResultsDependOnOperandsAlone :
    SameOperands (sized 0) { sized 0 with crcRes := .value 1, outLen := 7, status := State.reset.dropWrite.status } ∧
    (∀ i : Instr, ∃ t : State, exec i (sized 0) = .next t) ∧
    writesCrcRes .rxFrame = true ∧ writesResId .rxFrame = true ∧ writesResLen .rxFrame = true ∧
    0 < (after .cobsEncode (sized 0)).outLen.toNat ∧
    WritesField .structUnpack (built (some layoutOne) false false State.reset) 0 :=
  ⟨⟨rfl, rfl, rfl, rfl, rfl, fun _ _ _ => rfl, rfl, rfl⟩, fun i => ⟨_, after_spec i _⟩, by decide, by decide,
    by decide, by decide, ⟨rfl, by decide⟩⟩

theorem witness_CompletionWritesOnlyItsOutputSet :
    (∀ i : Instr, ∃ t : State, exec i (sized 0) = .next t) ∧
    writesCrcRes .cobsEncode = false ∧ writesResId .cobsEncode = false ∧ writesResLen .cobsEncode = false ∧
    (writesOut .crcCalc = false ∧ (after .crcCalc (sized 0)).status.err = 0 ∧
      (after .crcCalc (sized 257)).status.err = 1) ∧ ¬WritesField .cobsEncode (sized 0) 0 ∧
    (Instr.rxFrame ≠ .crcVerify ∧ Instr.rxFrame ≠ .msgIsResponse ∧ Instr.rxFrame ≠ .msgClassify) ∧
    ¬WritesField .structUnpack (built (some layoutOne) false false State.reset) 1 :=
  ⟨fun i => ⟨_, after_spec i _⟩, by decide, by decide, by decide, by decide, (fun h => by cases h.1), by decide,
    (fun h => absurd h.2 (by decide))⟩

theorem witness_SuccessStoresOnlyBelowOutLen :
    exec .cobsEncode (sized 0) = .next (after .cobsEncode (sized 0)) ∧ (after .cobsEncode (sized 0)).status.err = 0 ∧
    0x200 + (after .cobsEncode (sized 0)).outLen.toNat ≤ 0x201 :=
  ⟨after_spec _ _, by decide, by decide⟩

theorem witness_ErrorLeavesOutputSetUnspecified :
    (exec .rxFrame (sized 0) = .next (after .rxFrame (sized 0)) ∧ (after .rxFrame (sized 0)).status.err ≠ 0 ∧
      writesCrcRes .rxFrame = true ∧ writesResId .rxFrame = true ∧ writesResLen .rxFrame = true ∧
      writesOut .rxFrame = true) ∧
    (exec .structUnpack (built (some layoutOne) false false (sized 0)) =
        .next (after .structUnpack (built (some layoutOne) false false (sized 0))) ∧
      (after .structUnpack (built (some layoutOne) false false (sized 0))).status.err ≠ 0 ∧
      WritesField .structUnpack (built (some layoutOne) false false (sized 0)) 0) :=
  ⟨⟨after_spec _ _, by decide, by decide, by decide, by decide, by decide⟩,
    ⟨after_spec _ _, by decide, ⟨rfl, by decide⟩⟩⟩

/-- The bounds are met one above them, and one command has none. -/
theorem witness_OversizeInputIsCheckedFirst :
    (inputCap .crcCalc = some 256 ∧ 256 < (sized 257).inLen.toNat) ∧
    (inputCap .crcAppend = some 254 ∧ 254 < (sized 255).inLen.toNat) ∧
    (inputCap .cobsFrame = some 250 ∧ 250 < (sized 251).inLen.toNat) ∧
    (inputCap .txFrame = some 246 ∧ 246 < (sized 247).inLen.toNat) ∧
    (inputCap .structPack = none ∧ exec .structPack (sized 511) = .next (after .structPack (sized 511))) :=
  ⟨by decide, by decide, by decide, by decide, rfl, after_spec _ _⟩

theorem witness_ErrorCodesComeFromTheirCommands :
    (exec .cobsDecode (built none true false (loaded [0x02, 0x00])) =
        .next (after .cobsDecode (built none true false (loaded [0x02, 0x00]))) ∧
      (after .cobsDecode (built none true false (loaded [0x02, 0x00]))).status.err = 4) ∧
    (exec .msgUnpack (built none false true (loaded [0x10, 0x00, 0x00])) =
        .next (after .msgUnpack (built none false true (loaded [0x10, 0x00, 0x00]))) ∧
      (after .msgUnpack (built none false true (loaded [0x10, 0x00, 0x00]))).status.err = 9) :=
  ⟨⟨after_spec _ _, by decide⟩, ⟨after_spec _ _, by decide⟩⟩

theorem witness_OperandsAreAssembledFromRegisters :
    ((loaded [0xAB]).inLen.toNat ≤ 256 ∧ 0 < (loaded [0xAB]).inLen.toNat ∧
      (loaded [0xAB]).mem.read? (0x100 + 0) = some 0xAB) ∧
    (holding [0x0123456789ABCDEF] State.reset).fields[(0 : Fin 16)] =
      { lo := .value 0x89ABCDEF, hi := .value 0x01234567 } ∧
    { State.reset with layout := 15 }.layout.toNat = (15 : Fin 16).val := by decide

theorem witness_CrcCalcAndUpdateGiveCrcOfInput :
    (sized 256).inLen.toNat ≤ 256 ∧ 256 < (sized 257).inLen.toNat := by decide

theorem witness_CrcVerifyComparesWithArgument :
    (sized 256).inLen.toNat ≤ 256 ∧ 256 < (sized 257).inLen.toNat := by decide

theorem witness_CrcAppendPutsCrcLowByteFirst :
    (sized 254).inLen.toNat ≤ 254 ∧ 254 < (sized 255).inLen.toNat := by decide

/-- V-CRC-12: `FF FF` is the empty data with its CRC; one byte is no data with a CRC. -/
theorem witness_CrcCheckStripAcceptsOnlyOwnCrc :
    ((loaded [0xFF, 0xFF]).inLen.toNat ≤ 256 ∧ (loaded [0xFF, 0xFF]).input = crc16Append []) ∧
    ((sized 1).inLen.toNat ≤ 256 ∧ ∀ d, (sized 1).input ≠ crc16Append d) ∧
    256 < (sized 257).inLen.toNat := by
  refine ⟨by decide, ⟨by decide, fun d h => ?_⟩, by decide⟩
  have hl := congrArg List.length h
  simp [crc16Append, le16, sized] at hl

theorem witness_CrcDetectsEverySingleByteChange :
    1 < (crc16Append []).length ∧ ∀ h : 1 < (crc16Append []).length, (0x7F : Byte) ≠ (crc16Append [])[1] := by decide

theorem witness_CobsEncodeCommandGivesEncoding :
    (sized 250).inLen.toNat ≤ 250 ∧ 250 < (sized 251).inLen.toNat := by decide

theorem witness_CobsDecodeCommandGivesDecoding :
    ((sized 0).inLen.toNat ≤ 256 ∧ cobsDecode (sized 0).config.strictZero (sized 0).input = .ok []) ∧
    ((loaded [0x02]).inLen.toNat ≤ 256 ∧
      cobsDecode (loaded [0x02]).config.strictZero (loaded [0x02]).input = .error .cobsOverrun) ∧
    256 < (sized 257).inLen.toNat :=
  ⟨⟨by decide, rfl⟩, ⟨by decide, rfl⟩, by decide⟩

theorem witness_CobsFrameCommandAppendsDelimiter :
    (sized 250).inLen.toNat ≤ 250 ∧ 250 < (sized 251).inLen.toNat := by decide

theorem witness_CobsUnframeCommandNeedsDelimiter :
    ((loaded [0x00]).inLen.toNat ≤ 256 ∧ (loaded [0x00]).input = [] ++ [0x00] ∧
      cobsDecode (loaded [0x00]).config.strictZero [] = .ok []) ∧
    ((loaded [0x02, 0x00]).inLen.toNat ≤ 256 ∧ (loaded [0x02, 0x00]).input = [0x02] ++ [0x00] ∧
      cobsDecode (loaded [0x02, 0x00]).config.strictZero [0x02] = .error .cobsOverrun) ∧
    ((sized 0).inLen.toNat ≤ 256 ∧ ∀ e, (sized 0).input ≠ e ++ [0x00]) ∧
    256 < (sized 257).inLen.toNat ∧
    ([0x01, 0x00] : Bytes) = [0x01] ++ [0x00] ∧ ∀ e : Bytes, ([] : Bytes) ≠ e ++ [0x00] := by
  refine ⟨⟨by decide, rfl, rfl⟩, ⟨by decide, rfl, rfl⟩, ⟨by decide, fun e h => ?_⟩, by decide, rfl, fun e h => ?_⟩
  · have hl := congrArg List.length h
    simp [sized] at hl
  · have hl := congrArg List.length h
    simp at hl

/-- A whole block of the longest kind, 254 zero-free data bytes, and the two blocks of V-COBS-D12. -/
theorem witness_CobsDecodeJoinsBlocks :
    (∀ d ∈ [List.replicate 254 (0xAA : Byte)], d.length ≤ 254 ∧ (true = true → (0x00 : Byte) ∉ d)) ∧
    cobsDecode true [0x01, 0x01] = .ok [0x00] := by
  refine ⟨fun d hd => ?_, rfl⟩
  rw [List.mem_singleton.mp hd]
  exact ⟨Nat.le_of_eq List.length_replicate, fun _ h => absurd (List.eq_of_mem_replicate h) (by decide)⟩

theorem witness_CobsDecodeReportsFirstFault :
    (∀ d ∈ [[(0x01 : Byte)], []], d.length ≤ 254 ∧ (true = true → (0x00 : Byte) ∉ d)) ∧
    (([0x01] : Bytes).length + 1 < (0x03 : Byte).toNat ∧ (true = true → (0x00 : Byte) ∉ ([0x01] : Bytes))) ∧
    (([] : Bytes).length + 1 < (0x02 : Byte).toNat ∧ (0x00 : Byte) ∉ ([] : Bytes)) := by decide

theorem witness_CobsEncodeIsZeroFreeBlocks :
    (List.replicate 250 (0xFF : Byte)).length ≤ 250 ∧ 250 < (List.replicate 251 (0xFF : Byte)).length := by
  constructor <;> rw [List.length_replicate] <;> decide

theorem witness_CobsRoundTrip : (List.replicate 250 (0x00 : Byte)).length ≤ 250 :=
  Nat.le_of_eq List.length_replicate

theorem witness_CobsDecodedLengthIsSmaller :
    cobsDecode false [] = .ok [] ∧ cobsDecode true [0x01] = .ok [] ∧ ([0x01] : Bytes) ≠ [] :=
  ⟨rfl, rfl, by decide⟩

theorem witness_MsgPackPutsHeaderBeforePayload :
    (sized 250).inLen.toNat ≤ 250 ∧ 250 < (sized 251).inLen.toNat := by decide

theorem witness_MsgUnpackTakesDeclaredLength :
    256 < (sized 257).inLen.toNat ∧ (sized 1).inLen.toNat < 2 ∧
    ((loaded [0x10, 0x01]).inLen.toNat ≤ 256 ∧ (loaded [0x10, 0x01]).input = 0x10 :: 0x01 :: [] ∧
      ([] : Bytes).length < (0x01 : Byte).toNat) ∧
    ((built none false true (loaded [0x10, 0x00, 0xAA])).inLen.toNat ≤ 256 ∧
      (built none false true (loaded [0x10, 0x00, 0xAA])).input = 0x10 :: 0x00 :: [0xAA] ∧
      (0x00 : Byte).toNat < ([0xAA] : Bytes).length ∧
      (built none false true (loaded [0x10, 0x00, 0xAA])).config.rejectTrailing = true) ∧
    ((loaded [0x10, 0x01, 0xAA, 0xBB]).inLen.toNat ≤ 256 ∧
      (loaded [0x10, 0x01, 0xAA, 0xBB]).input = 0x10 :: 0x01 :: [0xAA, 0xBB] ∧
      (0x01 : Byte).toNat ≤ ([0xAA, 0xBB] : Bytes).length ∧
      ((loaded [0x10, 0x01, 0xAA, 0xBB]).config.rejectTrailing = true →
        (0x01 : Byte).toNat = ([0xAA, 0xBB] : Bytes).length)) ∧
    ((built none false true (loaded [0x10, 0x00])).input = 0x10 :: 0x00 :: [] ∧
      ((built none false true (loaded [0x10, 0x00])).config.rejectTrailing = true →
        (0x00 : Byte).toNat = ([] : Bytes).length)) ∧
    (([0x10] : Bytes).length < 2 ∧ ([] : Bytes).length < (0x01 : Byte).toNat ∧
      (0x00 : Byte).toNat < ([0xAA] : Bytes).length ∧ (0xFF : Byte).toNat ≤ (List.replicate 255 (0xAA : Byte)).length ∧
      (true = true → (0x00 : Byte).toNat = ([] : Bytes).length)) := by
  rw [List.length_replicate]
  decide

/-- The ends of the five ranges of 42_message.md R174. -/
theorem witness_MessageIdCommandsReadMsgIdAlone :
    ((named 0x8F (sized 0)).msgId &&& 0x7F).toNat ≤ 0x0F ∧
    0x10 ≤ ((named 0x10 (sized 0)).msgId &&& 0x7F).toNat ∧ ((named 0x2F (sized 0)).msgId &&& 0x7F).toNat ≤ 0x2F ∧
    0x30 ≤ ((named 0x30 (sized 0)).msgId &&& 0x7F).toNat ∧ ((named 0x3F (sized 0)).msgId &&& 0x7F).toNat ≤ 0x3F ∧
    0x40 ≤ ((named 0x40 (sized 0)).msgId &&& 0x7F).toNat ∧ ((named 0x4F (sized 0)).msgId &&& 0x7F).toNat ≤ 0x4F ∧
    0x50 ≤ ((named 0x50 (sized 0)).msgId &&& 0x7F).toNat ∧ (0x7F : Byte).toNat ≤ 0x7F := by decide

theorem witness_MsgUnpackInvertsPack : (List.replicate 250 (0x11 : Byte)).length ≤ 250 :=
  Nat.le_of_eq List.length_replicate

theorem witness_StructPackCommandPacksFields :
    (built none false false State.reset).selectedLayout = none ∧
    ((built (some layoutOne) false false State.reset).selectedLayout = some layoutOne ∧
      structPack layoutOne ((built (some layoutOne) false false State.reset).fieldValues.take layoutOne.fields.length) =
        .ok [0x00, 0x00]) ∧
    ((built (some layoutOne) false false (holding [0x8000] State.reset)).selectedLayout = some layoutOne ∧
      structPack layoutOne
        ((built (some layoutOne) false false (holding [0x8000] State.reset)).fieldValues.take layoutOne.fields.length) =
          .error .fieldRange) :=
  ⟨rfl, ⟨rfl, rfl⟩, ⟨rfl, rfl⟩⟩

theorem witness_StructUnpackCommandWritesFields :
    256 < (sized 257).inLen.toNat ∧
    ((built none false false (sized 256)).inLen.toNat ≤ 256 ∧
      (built none false false (sized 256)).selectedLayout = none) ∧
    ((built (some layoutOne) false false (loaded [0x00, 0x80])).inLen.toNat ≤ 256 ∧
      (built (some layoutOne) false false (loaded [0x00, 0x80])).selectedLayout = some layoutOne ∧
      structUnpack layoutOne (built (some layoutOne) false false (loaded [0x00, 0x80])).input =
        .ok [0xFFFFFFFFFFFF8000] ∧
      ([0xFFFFFFFFFFFF8000] : List Word64)[(0 : Fin 16).val]? = some 0xFFFFFFFFFFFF8000 ∧
      ([0xFFFFFFFFFFFF8000] : List Word64).length ≤ (1 : Fin 16).val) ∧
    ((built (some layoutOne) false false (sized 1)).inLen.toNat ≤ 256 ∧
      (built (some layoutOne) false false (sized 1)).selectedLayout = some layoutOne ∧
      structUnpack layoutOne (built (some layoutOne) false false (sized 1)).input = .error .structTooShort) :=
  ⟨by decide, ⟨by decide, rfl⟩, ⟨by decide, rfl, rfl, by decide, by decide⟩, ⟨by decide, rfl, rfl⟩⟩

/-- As many values as fields, and one more, which does not matter. -/
theorem witness_StructPackAndUnpackAreInverse :
    (layoutOne.fields.length ≤ ([0x7FFF] : List Word64).length ∧ structPack layoutOne [0x7FFF] = .ok [0xFF, 0x7F]) ∧
    (layoutOne.fields.length ≤ ([0x7FFF, 0x8000] : List Word64).length ∧
      structPack layoutOne [0x7FFF, 0x8000] = .ok [0xFF, 0x7F]) ∧
    structUnpack layoutOne [0xFF, 0x7F, 0xEE] = .ok [0x7FFF] ∧
    fieldsWidth layoutOne.fields ≤ ([0xFF, 0x7F] : Bytes).length :=
  ⟨⟨by decide, rfl⟩, ⟨by decide, rfl⟩, rfl, by decide⟩

/-- A field that does not fit, a field that fits and is no member, and a list of values that all pass (V-ST-06). -/
theorem witness_StructPackReportsFirstFailingField :
    layoutEx.fields.length ≤ (List.replicate 16 (0 : Word64)).length ∧
    (layoutEx.fields.length ≤ ([0x100, 0, 0, 0, 0] : List Word64).length ∧
      fieldFits { width := .one, signed := false, kind := .enum [0x00, 0x01, 0x02] } 0x100 = false) ∧
    (fieldFits { width := .one, signed := false, kind := .enum [0x00, 0x01, 0x02] } 3 = true ∧
      fieldMember { width := .one, signed := false, kind := .enum [0x00, 0x01, 0x02] } 3 = false) ∧
    ∀ (j : Nat) (g : FieldDesc) (u : Word64), layoutOne.fields[j]? = some g → ([7] : List Word64)[j]? = some u →
      fieldFits g u = true ∧ fieldMember g (u.setWidth (8 * g.width.bytes)) = true := by
  refine ⟨by decide, by decide, by decide, fun j g u hg hu => ?_⟩
  match j with
  | 0 =>
    obtain rfl := Option.some.inj hg
    obtain rfl := Option.some.inj hu
    decide
  | j + 1 => exact absurd hu (by simp)

/-- One byte too few; exactly N bytes, the last field with a bit outside its mask (V-ST-13); every field a member
(V-ST-10). -/
theorem witness_StructUnpackReadsFieldsInPlace :
    ([0x00] : Bytes).length < fieldsWidth layoutOne.fields ∧
    (fieldsWidth layoutEx.fields ≤ ([0x01, 0xFE, 0xFF, 0x78, 0x56, 0x34, 0x12, 0x80, 0xF8] : Bytes).length ∧
      layoutEx.fields[4]? = some { width := .one, signed := false, kind := .flags 0x07 } ∧
      fieldMember { width := .one, signed := false, kind := .flags 0x07 }
        (rawField layoutEx [0x01, 0xFE, 0xFF, 0x78, 0x56, 0x34, 0x12, 0x80, 0xF8] 4
          { width := .one, signed := false, kind := .flags 0x07 }) = false) ∧
    (fieldsWidth layoutEx.fields ≤ ([0x01, 0xFE, 0xFF, 0x78, 0x56, 0x34, 0x12, 0x80, 0x05] : Bytes).length ∧
      ∀ (k : Nat) (f : FieldDesc), layoutEx.fields[k]? = some f →
        fieldMember f (rawField layoutEx [0x01, 0xFE, 0xFF, 0x78, 0x56, 0x34, 0x12, 0x80, 0x05] k f) = true) ∧
    structUnpack layoutOne [0x01, 0x00] = .ok [1] ∧
    layoutOne.fields[0]? = some { width := .two, signed := true, kind := .int } := by
  refine ⟨by decide, ⟨by decide, rfl, by decide⟩, ⟨by decide, fun k f hf => ?_⟩, rfl, rfl⟩
  match k with
  | 0 | 1 | 2 | 3 | 4 =>
    obtain rfl := Option.some.inj hf
    decide
  | k + 5 => exact absurd hf (by simp [layoutEx])

/-- One field of each kind: the members of layout EX, and a raw value that is none. -/
theorem witness_FieldFitsWhenNothingIsLost :
    ({ width := .eight, signed := true, kind := .int } : FieldDesc).width = .eight ∧
    ({ width := .one, signed := false, kind := .int } : FieldDesc).kind = .int ∧
    ({ width := .one, signed := false, kind := .enum [0x00, 0x01, 0x02] } : FieldDesc).kind =
      .enum [0x00, 0x01, 0x02] ∧
    ({ width := .one, signed := false, kind := .flags 0x07 } : FieldDesc).kind = .flags 0x07 := ⟨rfl, rfl, rfl, rfl⟩

theorem witness_TxFrameCommandBuildsFrame :
    (sized 246).inLen.toNat ≤ 246 ∧ 246 < (sized 247).inLen.toNat := by decide

set_option maxRecDepth 4000 in
/-- One input for each stage: V-RX-08, V-RX-03, V-RX-04 and V-TX-02. -/
theorem witness_RxFrameCommandRunsStagesInOrder :
    256 < (sized 257).inLen.toNat ∧
    ((sized 0).inLen.toNat ≤ 256 ∧
      cobsUnframe (sized 0).config.strictZero (sized 0).input = .error .missingDelimiter) ∧
    (cobsUnframe (loaded [0x00]).config.strictZero (loaded [0x00]).input = .ok [] ∧
      ∀ d, ([] : Bytes) ≠ crc16Append d) ∧
    (cobsUnframe (loaded [0x03, 0xFF, 0xFF, 0x00]).config.strictZero (loaded [0x03, 0xFF, 0xFF, 0x00]).input =
        .ok (crc16Append []) ∧
      msgUnpack (loaded [0x03, 0xFF, 0xFF, 0x00]).config.rejectTrailing [] = .error .msgTooShort) ∧
    (cobsUnframe (loaded [0x02, 0x01, 0x03, 0x3E, 0x2E, 0x00]).config.strictZero
        (loaded [0x02, 0x01, 0x03, 0x3E, 0x2E, 0x00]).input = .ok (crc16Append [0x01, 0x00]) ∧
      msgUnpack (loaded [0x02, 0x01, 0x03, 0x3E, 0x2E, 0x00]).config.rejectTrailing [0x01, 0x00] =
        .ok { id := 0x01, length := 0x00, payload := [] }) := by
  refine ⟨by decide, ⟨by decide, rfl⟩, ⟨rfl, fun d h => ?_⟩, ⟨rfl, rfl⟩, ⟨rfl, rfl⟩⟩
  have hl := congrArg List.length h
  simp [crc16Append, le16] at hl

set_option maxRecDepth 4000 in
theorem witness_FrameLimitLengthAndOnlyZero :
    (246 < (List.replicate 247 (0x11 : Byte)).length ∧ (List.replicate 250 (0x11 : Byte)).length ≤ 250) ∧
    txFrame 0x01 [] = .ok ([0x02, 0x01, 0x03, 0x3E, 0x2E, 0x00], 0x2E3E) :=
  ⟨by constructor <;> rw [List.length_replicate] <;> decide, rfl⟩

set_option maxRecDepth 4000 in
/-- V-TX-02. -/
theorem witness_FrameRoundTrip : txFrame 0x01 [] = .ok ([0x02, 0x01, 0x03, 0x3E, 0x2E, 0x00], 0x2E3E) := rfl

set_option maxRecDepth 4000 in
/-- V-TX-02. -/
theorem witness_FrameTravelsBetweenBlocks :
    (named 0x01 (sized 0)).inLen.toNat ≤ 246 ∧
    exec .txFrame (named 0x01 (sized 0)) = .next (after .txFrame (named 0x01 (sized 0))) ∧
    OutHolds (after .txFrame (named 0x01 (sized 0))) [0x02, 0x01, 0x03, 0x3E, 0x2E, 0x00] ∧
    InHolds (loaded [0x02, 0x01, 0x03, 0x3E, 0x2E, 0x00]) [0x02, 0x01, 0x03, 0x3E, 0x2E, 0x00] := by
  refine ⟨by decide, after_spec _ _, ⟨by decide, ?_⟩, ⟨by decide, ?_⟩⟩ <;> decide

/-- The last word of each region, and the first offset that holds nothing. -/
theorem witness_BusErrorsAndReadsChangeNothing :
    LegalAccess 0x024 .word ∧ LegalAccess 0x0FC .word ∧ LegalAccess 0x1FC .word ∧ LegalAccess 0x2FF .byte ∧
    ¬LegalAccess 0x028 .word ∧ ¬LegalAccess 0x07C .word ∧ ¬LegalAccess 0x300 .byte ∧ ¬LegalAccess 0x2FF .half ∧
    ¬LegalAccess 0x0FC .byte := by
  simp [LegalAccess, AccessWidth.bytes]

theorem witness_WritesWhileBusyAreDropped :
    ((busyWith 0x01 []).status.busy = true ∧ StoresOperand 0x008 .word ∧ StoresOperand 0x010 .word ∧
      StoresOperand 0x018 .word ∧ StoresOperand 0x024 .word ∧ StoresOperand 0x080 .word ∧ StoresOperand 0x1FF .byte) ∧
    (StoresReadOnly 0x00C .word ∧ StoresReadOnly 0x014 .word ∧ StoresReadOnly 0x01C .word ∧
      StoresReadOnly 0x020 .word ∧ StoresReadOnly 0x200 .byte ∧ StoresReadOnly 0x2FE .half) := by
  simp [StoresOperand, StoresReadOnly, LegalAccess, AccessWidth.bytes, busyWith, Status.accepted]

theorem witness_ReservedBitsReadZeroAndIgnoreWrites :
    LegalAccess (0x0FC : BitVec 12).toNat .word ∧ (0x0FC : BitVec 12).toNat < 0x100 ∧
    (LegalAccess (0x024 : BitVec 12).toNat .word ∧
      (0xFFFFFFF5 : Word32) &&& writeMask 0x024 = (0x00000005 : Word32) &&& writeMask 0x024) := by
  unfold LegalAccess
  decide

theorem witness_OperandRegistersStoreAndRead : State.reset.status.busy = false := rfl

theorem witness_FieldHalvesAreSeparate : State.reset.status.busy = false ∧ (1 : Fin 16) ≠ 0 := by decide

/-- A reserved opcode is busy and writes nothing but OUT_LEN. -/
theorem reserved_writes_nothing (p : Instr → Prop) : ¬RunningWrites (busyWith 0x1F []) p := by
  have h : decodeOp 0x1F = .error (.reservedOpcode 0x1F) := rfl
  rintro ⟨-, i, hi, -⟩
  cases h.symm.trans hi

/-- The ends of the two buffers: IN under a busy command that writes OUT, OUT under one that does not and under a
reserved opcode, an unlisted byte, and a write of an idle block's IN. -/
theorem witness_BufferAccessIsLittleEndian :
    (LegalAccess (0x100 : BitVec 12).toNat .word ∧ (0x100 : BitVec 12).toNat < 0x200 ∧
      RunningWrites { loaded [0xAB] with status := Status.accepted State.reset.status, latchedOp := 0x1D }
        (fun i => writesOut i = true) ∧
      (loaded [0xAB]).mem.read? (0x100 + 0) = some 0xAB ∧ (loaded [0xAB]).mem.read? (0x100 + 3) = none) ∧
    (LegalAccess (0x2FE : BitVec 12).toNat .half ∧ ¬RunningWrites (busyWith 0x01 []) (fun i => writesOut i = true) ∧
      ¬RunningWrites (busyWith 0x1F []) (fun i => writesOut i = true) ∧
      (busyWith 0x01 []).mem.read? (0x2FE + 1) = none) ∧
    (LegalAccess (0x1FF : BitVec 12).toNat .byte ∧ (0x1FF : BitVec 12).toNat < 0x200 ∧
      State.reset.status.busy = false) := by
  have h : decodeOp 0x01 = .ok .crcCalc := rfl
  refine ⟨⟨by unfold LegalAccess; decide, by decide, ⟨rfl, .rxFrame, rfl, by decide⟩, by decide, by decide⟩,
    ⟨by unfold LegalAccess; decide, ?_, reserved_writes_nothing _, by decide⟩,
    ⟨by unfold LegalAccess; decide, by decide, rfl⟩⟩
  rintro ⟨-, i, hi, hw⟩
  obtain rfl := Except.ok.inj (h.symm.trans hi)
  exact absurd hw (by decide)

theorem witness_BusyReadsOfOutputSetAreFree :
    ((busyWith 0x00 []).status.busy = true ∧ (busyWith 0x00 []).latchedOp ∈ reservedOpcodes) ∧
    RunningWrites (busyWith 0x1D []) (fun i => writesCrcRes i = true) ∧
    RunningWrites (busyWith 0x1D []) (fun i => writesResId i = true) ∧
    RunningWrites (busyWith 0x1D []) (fun i => writesResLen i = true) ∧
    RunningWrites (built (some layoutOne) false false (busyWith 0x19 [])) (fun i =>
      WritesField i (built (some layoutOne) false false (busyWith 0x19 [])) 0) ∧
    (RunningWrites (busyWith 0x1D []) (fun i => writesOut i = true) ∧ LegalAccess (0x200 : BitVec 12).toNat .word ∧
      LegalAccess (0x2FE : BitVec 12).toNat .half ∧ LegalAccess (0x2FF : BitVec 12).toNat .byte) :=
  ⟨⟨rfl, by decide⟩, ⟨rfl, .rxFrame, rfl, by decide⟩, ⟨rfl, .rxFrame, rfl, by decide⟩,
    ⟨rfl, .rxFrame, rfl, by decide⟩, ⟨rfl, .structUnpack, rfl, rfl, by decide⟩,
    ⟨rfl, .rxFrame, rfl, by decide⟩, by unfold LegalAccess; decide⟩

/-- An idle block runs nothing. -/
theorem idle_writes_nothing {s : State} (h : s.status.busy = false) (p : Instr → Prop) : ¬RunningWrites s p := by
  rintro ⟨hb, -⟩
  rw [h] at hb
  cases hb

/-- A busy block that meets the invariant; held values, on an idle block and under a reserved opcode and under a command
that writes none of them; contents that an error left unspecified; the first and last byte of each buffer. -/
theorem witness_OtherReadsGiveHeldValues :
    (BlockInvariant (busyWith 0x12 []) ∧ (busyWith 0x12 []).status.busy = true) ∧
    State.reset.status.busy = false ∧
    (∀ p, ¬RunningWrites (busyWith 0x1F []) p) ∧
    (¬RunningWrites (busyWith 0x12 []) (fun i => writesCrcRes i = true) ∧ (busyWith 0x12 []).crcRes = .value 0) ∧
    (¬RunningWrites (busyWith 0x12 []) (fun i => writesResId i = true) ∧ (busyWith 0x12 []).resId = .value 0) ∧
    (¬RunningWrites (busyWith 0x12 []) (fun i => writesResLen i = true) ∧ (busyWith 0x12 []).resLen = .value 0) ∧
    (¬RunningWrites (busyWith 0x12 []) (fun i => WritesField i (busyWith 0x12 []) 15) ∧
      (busyWith 0x12 []).fields[(15 : Fin 16)] = { lo := .value 0, hi := .value 0 }) ∧
    ((∀ p, ¬RunningWrites (after .rxFrame (sized 0)) p) ∧ (after .rxFrame (sized 0)).crcRes = .unspecified ∧
      (after .rxFrame (sized 0)).resId = .unspecified ∧ (after .rxFrame (sized 0)).resLen = .unspecified) ∧
    ((∀ p, ¬RunningWrites (after .structUnpack (built (some layoutOne) false false (sized 0))) p) ∧
      (after .structUnpack (built (some layoutOne) false false (sized 0))).fields[(0 : Fin 16)] =
        { lo := .unspecified, hi := .unspecified }) ∧
    ((loaded [0xAB]).mem.read? 0x100 = some 0xAB ∧ (loaded [0xAB]).mem.read? 0x1FF = none) ∧
    (¬RunningWrites (busyWith 0x12 []) (fun i => writesOut i = true) ∧
      Memory.read? (Memory.write [] 0x2FF 0xAB) 0x2FF = some 0xAB ∧ (busyWith 0x12 []).mem.read? 0x200 = none) := by
  have h : decodeOp 0x12 = .ok .msgIsResponse := rfl
  have others : ∀ p : Instr → Prop, ¬p .msgIsResponse → ¬RunningWrites (busyWith 0x12 []) p := by
    rintro p hp ⟨-, i, hi, hw⟩
    obtain rfl := Except.ok.inj (h.symm.trans hi)
    exact hp hw
  refine ⟨⟨⟨by decide, by decide, by decide, by decide, by decide, by decide,
    ⟨List.Pairwise.nil, fun c h => by cases h⟩⟩, rfl⟩, rfl, reserved_writes_nothing, ⟨others _ (by decide), rfl⟩,
    ⟨others _ (by decide), rfl⟩, ⟨others _ (by decide), rfl⟩,
    ⟨others _ (fun h => by cases h.1), by decide⟩, ⟨idle_writes_nothing (by decide), by decide, by decide, by decide⟩,
    ⟨idle_writes_nothing (by decide), by decide⟩, ⟨by decide, by decide⟩, ⟨others _ (by decide), by decide, by decide⟩⟩

theorem witness_SetInFillsInputBuffer :
    (List.replicate 256 (0x11 : Byte)).length ≤ 256 ∧
    (idleWith (setIn (List.replicate 256 0x11) ++ [.engine])).status.busy = false ∧
    (idleWith (setIn (List.replicate 256 0x11) ++ [.engine])).agenda = setIn (List.replicate 256 0x11) ++ [.engine] :=
  ⟨Nat.le_of_eq List.length_replicate, rfl, rfl⟩

end Sys2Proof.Tests
end

section
/-! ## The turns of the agents (R14, R253, R268, R280) -/

namespace Sys2Proof.Machine

/-- R93: a reserved opcode decodes to no command. -/
theorem decodeOp_of_reserved {op : BitVec 5} (h : op ∈ reservedOpcodes) : decodeOp op = .error (.reservedOpcode op) := by
  revert op
  decide

theorem engineTurn_of_reserved {s : State} (hb : s.status.busy = true) (hr : s.latchedOp ∈ reservedOpcodes) :
    engineTurn s = completeReserved s :=
  engineTurn_reserved hb (decodeOp_of_reserved hr)

/-- R253, R268: the engine's turn leaves the block idle, whatever was running. -/
theorem engineTurn_makes_idle (s : State) : ∃ t, engineTurn s = .next t ∧ t.status.busy = false := by
  rcases engineTurn_cases s with ⟨hb, h⟩ | ⟨-, i, -, h⟩ | ⟨-, -, h⟩
  · exact ⟨s, h, hb⟩
  · have hexec := exec_eq_complete i s
    obtain ⟨-, -, hidle, -⟩ := exec_keep hexec
    exact ⟨_, h.trans hexec, hidle⟩
  · exact ⟨_, h, rfl⟩

theorem run_one {s t : State} (h : step s = .next t) : Host.Core.run Sys2Proof.core 1 s = .next t :=
  run_step h

/-- Settles O3: each clause is the law of `step` for that head of the agenda, followed by the law of `engineTurn` where
the turn is the engine's. -/
theorem stepGivesEachAgentItsTurn : Obligations.StepGivesEachAgentItsTurn := by
  intro s rest
  refine ⟨fun i hb hd => ⟨fun ha => ?_, fun ha => ?_⟩, fun hb hr => ⟨fun ha => ?_, fun ha => ?_⟩,
    fun a ha => ?_, fun ha => ?_, fun hb ha => ?_, fun hb ha => ?_⟩
  · exact (step_engine ha).trans (engineTurn_command (s := s.setAgenda rest) hb hd)
  · exact (step_nil ha).trans (engineTurn_command hb hd)
  · exact (step_engine ha).trans (engineTurn_of_reserved (s := s.setAgenda rest) hb hr)
  · exact (step_nil ha).trans (engineTurn_of_reserved hb hr)
  · exact step_host ha
  · exact step_reset ha
  · exact (step_engine ha).trans (engineTurn_idle (s := s.setAgenda rest) hb)
  · exact (step_nil ha).trans (engineTurn_idle hb)

/-- Settles O12, by induction on the agenda: a host access shortens it, and any other turn leaves the block idle. -/
theorem busyBlockBecomesIdle : Obligations.BusyBlockBecomesIdle := by
  intro s
  generalize hes : s.agenda = es
  induction es generalizing s with
  | nil =>
    obtain ⟨t, ht, hidle⟩ := engineTurn_makes_idle s
    exact ⟨1, t, by simp, run_one ((step_nil hes).trans ht), hidle⟩
  | cons e es ih =>
    cases e with
    | host a =>
      obtain ⟨-, hagenda, -⟩ := access_keep (s.setAgenda es) a
      obtain ⟨k, t, hk, hrun, hidle⟩ := ih _ hagenda
      exact ⟨k + 1, t, by simp only [List.length_cons]; omega, (run_step (step_host hes)).trans hrun, hidle⟩
    | engine =>
      obtain ⟨t, ht, hidle⟩ := engineTurn_makes_idle (s.setAgenda es)
      exact ⟨1, t, by simp, run_one ((step_engine hes).trans ht), hidle⟩
    | reset => exact ⟨1, _, by simp, run_one (step_reset hes), rfl⟩

end Sys2Proof.Machine
end

section
/-! ## Layout fields (R12, R201 to R205) -/

namespace Sys2Proof.Machine

theorem fieldBits_le (w : FieldWidth) : 8 * w.bytes ≤ 64 := by cases w <;> decide

theorem fieldBits_pos (w : FieldWidth) : 0 < 8 * w.bytes := by cases w <;> decide

/-- R202: an unsigned value survives truncation to `n` bits exactly when it is below `2^n`. -/
theorem setWidth_setWidth_eq_iff {n : Nat} (hn : n ≤ 64) (v : Word64) :
    (v.setWidth n).setWidth 64 = v ↔ v.toNat < 2 ^ n := by
  have hle : 2 ^ n ≤ 2 ^ 64 := Nat.pow_le_pow_right (by decide) hn
  have hpos : 0 < 2 ^ n := Nat.two_pow_pos n
  rw [← BitVec.toNat_inj, BitVec.toNat_setWidth, BitVec.toNat_setWidth,
    Nat.mod_eq_of_lt (Nat.lt_of_lt_of_le (Nat.mod_lt _ hpos) hle), Nat.mod_eq_iff_lt hpos.ne']

/-- R202, R12: a signed value survives truncation to `n` bits exactly when it is in the range of `n`-bit two's
complement. -/
theorem signExtend_setWidth_eq_iff {n : Nat} (h0 : 0 < n) (hn : n ≤ 64) (v : Word64) :
    (v.setWidth n).signExtend 64 = v ↔ -(2 ^ (n - 1) : Int) ≤ v.toInt ∧ v.toInt ≤ 2 ^ (n - 1) - 1 := by
  obtain ⟨m, rfl⟩ : ∃ m, n = m + 1 := ⟨n - 1, by omega⟩
  have hpow : ((2 ^ (m + 1) : Nat) : Int) = 2 * 2 ^ m := by rw [pow_succ]; push_cast; ring
  rw [← BitVec.toInt_inj, BitVec.toInt_signExtend_of_le hn, BitVec.toInt_setWidth,
    ← Int.bmod_bmod_of_dvd (Nat.pow_dvd_pow 2 hn), ← BitVec.toInt_eq_toNat_bmod,
    Int.bmod_eq_iff (Nat.two_pow_pos _), hpow]
  simp only [Int.sub_self, dvd_zero, and_true, Nat.add_sub_cancel]
  omega

theorem fieldFits_iff (f : FieldDesc) (v : Word64) :
    fieldFits f v = true ↔ fieldWiden f (v.setWidth (8 * f.width.bytes)) = v := by
  unfold fieldFits fieldWiden
  cases f.signed with
  | true => simpa using (signExtend_setWidth_eq_iff (fieldBits_pos f.width) (fieldBits_le f.width) v).symm
  | false => simpa using (setWidth_setWidth_eq_iff (fieldBits_le f.width) v).symm

theorem fieldFits_of_eight {f : FieldDesc} (h : f.width = .eight) (v : Word64) : fieldFits f v = true := by
  obtain ⟨w, signed, kind⟩ := f
  obtain rfl : w = .eight := h
  rw [fieldFits_iff]
  cases signed with
  | true => exact (BitVec.signExtend_eq _).trans (BitVec.setWidth_eq _)
  | false => exact (BitVec.setWidth_eq _).trans (BitVec.setWidth_eq _)

theorem fieldMember_of_int {f : FieldDesc} (h : f.kind = .int) (raw : BitVec (8 * f.width.bytes)) :
    fieldMember f raw = true := by
  simp [fieldMember, h]

theorem fieldMember_of_enum {f : FieldDesc} {S : List (BitVec (8 * f.width.bytes))} (h : f.kind = .enum S)
    (raw : BitVec (8 * f.width.bytes)) : fieldMember f raw = true ↔ raw ∈ S := by
  simp [fieldMember, h]

theorem fieldMember_of_flags {f : FieldDesc} {M : BitVec (8 * f.width.bytes)} (h : f.kind = .flags M)
    (raw : BitVec (8 * f.width.bytes)) : fieldMember f raw = true ↔ raw &&& ~~~M = 0 := by
  simp [fieldMember, h]

/-- Settles O46: a value fits exactly when `fieldWiden` undoes the truncation, and membership is a case of the kind. -/
theorem fieldFitsWhenNothingIsLost : Obligations.FieldFitsWhenNothingIsLost := by
  intro f v
  exact ⟨fieldFits_iff f v, fun h => fieldFits_of_eight h v, fun raw =>
    ⟨fun h => fieldMember_of_int h raw, fun _ h => fieldMember_of_enum h raw, fun _ h => fieldMember_of_flags h raw⟩⟩

/-! ### Unpacking -/

/-- `rawField`, of a list of fields: the raw value at the width of the first `k` fields. -/
def rawFieldOf (fs : List FieldDesc) (b : Bytes) (k : Nat) (f : FieldDesc) : BitVec (8 * f.width.bytes) :=
  BitVec.ofNat (8 * f.width.bytes) (fromLe ((b.drop (fieldsWidth (fs.take k))).take f.width.bytes))

theorem rawField_eq_rawFieldOf (l : Layout) (b : Bytes) (k : Nat) (f : FieldDesc) :
    rawField l b k f = rawFieldOf l.fields b k f := rfl

theorem rawFieldOf_succ (g : FieldDesc) (fs : List FieldDesc) (b : Bytes) (k : Nat) (f : FieldDesc) :
    rawFieldOf (g :: fs) b (k + 1) f = rawFieldOf fs (b.drop g.width.bytes) k f := by
  simp [rawFieldOf, fieldsWidth, List.drop_drop]

/-- R205: what one turn of the loop does. -/
theorem unpackFields_cons (f : FieldDesc) (fs : List FieldDesc) (b : Bytes) :
    (fieldMember f (rawFieldOf (f :: fs) b 0 f) = false ∧ unpackFields (f :: fs) b = .error .enumUnknown) ∨
    (fieldMember f (rawFieldOf (f :: fs) b 0 f) = true ∧
      unpackFields (f :: fs) b =
        (unpackFields fs (b.drop f.width.bytes)).map (fieldWiden f (rawFieldOf (f :: fs) b 0 f) :: ·)) := by
  have hraw : rawFieldOf (f :: fs) b 0 f =
      BitVec.ofNat (8 * f.width.bytes) (fromLe (b.take f.width.bytes)) := by simp [rawFieldOf, fieldsWidth]
  rw [hraw]
  simp only [unpackFields]
  cases hm : fieldMember f (BitVec.ofNat (8 * f.width.bytes) (fromLe (b.take f.width.bytes))) with
  | false => simp
  | true => cases hu : unpackFields fs (b.drop f.width.bytes) <;> simp [Except.map]

/-- R205: the loop succeeds, or meets a raw value that is no member. -/
theorem unpackFields_outcomes (fs : List FieldDesc) (b : Bytes) :
    (∃ vs, unpackFields fs b = .ok vs) ∨ unpackFields fs b = .error .enumUnknown := by
  induction fs generalizing b with
  | nil => exact .inl ⟨[], rfl⟩
  | cons f fs ih =>
    rcases unpackFields_cons f fs b with ⟨-, h⟩ | ⟨-, h⟩
    · exact .inr h
    · rcases ih (b.drop f.width.bytes) with ⟨vs, hvs⟩ | he
      · exact .inl ⟨_, by rw [h, hvs]; rfl⟩
      · exact .inr (by rw [h, he]; rfl)

/-- R205, R201: the values of a loop that succeeds, field by field. -/
theorem unpackFields_ok {fs : List FieldDesc} {b : Bytes} {vs : List Word64} (h : unpackFields fs b = .ok vs) :
    vs.length = fs.length ∧ ∀ (k : Nat) (f : FieldDesc), fs[k]? = some f →
      fieldMember f (rawFieldOf fs b k f) = true ∧ vs[k]? = some (fieldWiden f (rawFieldOf fs b k f)) := by
  induction fs generalizing b vs with
  | nil =>
    obtain rfl : [] = vs := Except.ok.inj h
    simp
  | cons g fs ih =>
    rcases unpackFields_cons g fs b with ⟨-, he⟩ | ⟨hm, he⟩
    · cases he.symm.trans h
    · cases hu : unpackFields fs (b.drop g.width.bytes) with
      | error e => rw [he, hu] at h; cases h
      | ok us =>
        rw [he, hu] at h
        obtain rfl := Except.ok.inj h
        obtain ⟨hlen, hfields⟩ := ih hu
        refine ⟨by simp [hlen], fun k f hf => ?_⟩
        cases k with
        | zero =>
          obtain rfl : g = f := by simpa using hf
          exact ⟨hm, rfl⟩
        | succ k =>
          rw [rawFieldOf_succ]
          exact hfields k f hf

/-- R205: the loop succeeds when every field's raw value is a member. -/
theorem unpackFields_of_members {fs : List FieldDesc} {b : Bytes}
    (h : ∀ (k : Nat) (f : FieldDesc), fs[k]? = some f → fieldMember f (rawFieldOf fs b k f) = true) :
    ∃ vs, unpackFields fs b = .ok vs := by
  induction fs generalizing b with
  | nil => exact ⟨[], rfl⟩
  | cons g fs ih =>
    have htail : ∀ (k : Nat) (f : FieldDesc), fs[k]? = some f →
        fieldMember f (rawFieldOf fs (b.drop g.width.bytes) k f) = true := fun k f hf => by
      rw [← rawFieldOf_succ g]
      exact h (k + 1) f hf
    obtain ⟨us, hus⟩ := ih htail
    rcases unpackFields_cons g fs b with ⟨hm, -⟩ | ⟨-, he⟩
    · rw [h 0 g rfl] at hm; cases hm
    · exact ⟨_, by rw [he, hus]; rfl⟩

/-- R205: one field that is no member is ENUM_UNKNOWN. -/
theorem unpackFields_of_not_member {fs : List FieldDesc} {b : Bytes} {k : Nat} {f : FieldDesc} (hf : fs[k]? = some f)
    (hm : fieldMember f (rawFieldOf fs b k f) = false) : unpackFields fs b = .error .enumUnknown := by
  rcases unpackFields_outcomes fs b with ⟨vs, hvs⟩ | he
  · obtain ⟨-, hfields⟩ := unpackFields_ok hvs
    obtain ⟨hmember, -⟩ := hfields k f hf
    rw [hm] at hmember
    cases hmember
  · exact he

theorem structUnpack_of_short {l : Layout} {b : Bytes} (h : b.length < fieldsWidth l.fields) :
    structUnpack l b = .error .structTooShort := if_pos h

theorem structUnpack_of_long {l : Layout} {b : Bytes} (h : fieldsWidth l.fields ≤ b.length) :
    structUnpack l b = unpackFields l.fields b := if_neg (Nat.not_lt.mpr h)

/-- Settles O45: the length check, then the loop of `unpackFields` read field by field. -/
theorem structUnpackReadsFieldsInPlace : Obligations.StructUnpackReadsFieldsInPlace := by
  intro l b
  simp only [rawField_eq_rawFieldOf]
  refine ⟨structUnpack_of_short, fun hlong => ⟨fun k f hf hm => ?_, fun hmembers => ?_⟩, fun vs hvs => ?_⟩
  · exact (structUnpack_of_long hlong).trans (unpackFields_of_not_member hf hm)
  · rw [structUnpack_of_long hlong]
    exact unpackFields_of_members hmembers
  · rcases Nat.lt_or_ge b.length (fieldsWidth l.fields) with hshort | hlong
    · cases (structUnpack_of_short hshort).symm.trans hvs
    · exact unpackFields_ok ((structUnpack_of_long hlong).symm.trans hvs)

end Sys2Proof.Machine
end

section
/-! ## Reads of the window (R60, R66, R287) -/

namespace Sys2Proof.Machine

/-! ### The output set of the running command -/

theorem readUnlessHidden_of_hidden {w : Nat} {hidden : Bool} {draw place : Nat} {v : BitVec w} (h : hidden = true) :
    readUnlessHidden hidden draw place v = Config.unspecified w draw place := if_pos h

theorem readUnlessHidden_of_not_hidden {w : Nat} {hidden : Bool} {draw place : Nat} {v : BitVec w}
    (h : ¬hidden = true) : readUnlessHidden hidden draw place v = v := if_neg h

/-- R13: a read of a content, through any function `f` of the value read, for the two forms of a content. -/
theorem Content.read_held {w : Nat} {α : Type} (f : BitVec w → α) (c : Content w) (draw place : Nat) :
    (∀ v, c = .value v → f (c.read draw place) = f v) ∧
    (c = .unspecified → f (c.read draw place) = f (Config.unspecified w draw place)) := by
  constructor
  · rintro v rfl; rfl
  · rintro rfl; rfl

theorem State.hidden_busy {s : State} (h : s.status.busy = true) : s.hidden true = true := by
  simp [State.hidden, h]

theorem State.not_hidden_idle {s : State} (h : s.status.busy = false) (inSet : Bool) : ¬s.hidden inSet = true := by
  simp [State.hidden, h]

/-- R252, R287: a member `q` of the output set is hidden exactly while a command that writes it is running. -/
theorem State.hidden_iff_running (s : State) (q : OutputSet → Bool) (p : Instr → Prop)
    (hp : ∀ i, q (outputSetOf i s.fieldCount) = true ↔ p i) (hr : q reservedOutputSet = false) :
    s.hidden (q s.runningOutputSet) = true ↔ RunningWrites s p := by
  unfold State.hidden State.runningOutputSet RunningWrites
  cases hd : decodeOp s.latchedOp with
  | ok i => simp [hp]
  | error r => simp [hr]

theorem outputSetOf_crcRes (i : Instr) (k : Nat) : (outputSetOf i k).crcRes = writesCrcRes i := by cases i <;> rfl

theorem outputSetOf_resId (i : Instr) (k : Nat) : (outputSetOf i k).resId = writesResId i := by cases i <;> rfl

theorem outputSetOf_resLen (i : Instr) (k : Nat) : (outputSetOf i k).resLen = writesResLen i := by cases i <;> rfl

theorem outputSetOf_out (i : Instr) (k : Nat) : (outputSetOf i k).out = writesOut i := by cases i <;> rfl

theorem outputSetOf_fields (i : Instr) (k : Nat) :
    (outputSetOf i k).fields = if i = .structUnpack then k else 0 := by cases i <;> rfl

theorem State.hidden_crcRes_iff (s : State) :
    s.hidden s.runningOutputSet.crcRes = true ↔ RunningWrites s (fun i => writesCrcRes i = true) :=
  s.hidden_iff_running (·.crcRes) _ (fun i => by rw [outputSetOf_crcRes]) rfl

theorem State.hidden_resId_iff (s : State) :
    s.hidden s.runningOutputSet.resId = true ↔ RunningWrites s (fun i => writesResId i = true) :=
  s.hidden_iff_running (·.resId) _ (fun i => by rw [outputSetOf_resId]) rfl

theorem State.hidden_resLen_iff (s : State) :
    s.hidden s.runningOutputSet.resLen = true ↔ RunningWrites s (fun i => writesResLen i = true) :=
  s.hidden_iff_running (·.resLen) _ (fun i => by rw [outputSetOf_resLen]) rfl

theorem State.hidden_out_iff (s : State) :
    s.hidden s.runningOutputSet.out = true ↔ RunningWrites s (fun i => writesOut i = true) :=
  s.hidden_iff_running (·.out) _ (fun i => by rw [outputSetOf_out]) rfl

theorem State.hidden_field_iff (s : State) (j : Fin 16) :
    s.hidden (decide (j.val < s.runningOutputSet.fields)) = true ↔ RunningWrites s (fun i => WritesField i s j) :=
  s.hidden_iff_running (fun o => decide (j.val < o.fields)) _
    (fun i => by by_cases h : i = .structUnpack <;> simp [outputSetOf_fields, WritesField, h])
    (by simp [reservedOutputSet])

/-! ### Registers -/

theorem readResponse_status (s : State) : (s.readResponse 0x004 .word).data = s.status.word := rfl

theorem readResponse_outLen (s : State) : (s.readResponse 0x00C .word).data =
    (readUnlessHidden (s.hidden true) s.draws 0x00C s.outLen).setWidth 32 := rfl

theorem readResponse_crcRes (s : State) : (s.readResponse 0x014 .word).data =
    (readUnlessHidden (s.hidden s.runningOutputSet.crcRes) s.draws 0x014
      (s.crcRes.read s.draws 0x014)).setWidth 32 := rfl

theorem readResponse_resId (s : State) : (s.readResponse 0x01C .word).data =
    (readUnlessHidden (s.hidden s.runningOutputSet.resId) s.draws 0x01C
      (s.resId.read s.draws 0x01C)).setWidth 32 := rfl

theorem readResponse_resLen (s : State) : (s.readResponse 0x020 .word).data =
    (readUnlessHidden (s.hidden s.runningOutputSet.resLen) s.draws 0x020
      (s.resLen.read s.draws 0x020)).setWidth 32 := rfl

theorem legalAccess_field {off : Nat} (h0 : off % 4 = 0) (h1 : 0x080 ≤ off) (h2 : off < 0x100) :
    LegalAccess off .word := ⟨h0, .inl ⟨rfl, .inr ⟨h1, h2⟩⟩⟩

theorem readResponse_fieldLo (s : State) (j : Fin 16) :
    (s.readResponse (BitVec.ofNat 12 (0x080 + 8 * j.val)) .word).data =
      readUnlessHidden (s.hidden (decide (j.val < s.runningOutputSet.fields))) s.draws (0x080 + 8 * j.val)
        (s.fields[j].lo.read s.draws (0x080 + 8 * j.val)) := by
  have hlegal : LegalAccess (BitVec.ofNat 12 (0x080 + 8 * j.val)).toNat .word := by
    rw [fieldLo_toNat]; exact legalAccess_field (by omega) (by omega) (by omega)
  simp only [readResponse_of_legal hlegal, State.readPlace, placeAt_fieldLo]
  rw [fieldLo_toNat]

theorem readResponse_fieldHi (s : State) (j : Fin 16) :
    (s.readResponse (BitVec.ofNat 12 (0x084 + 8 * j.val)) .word).data =
      readUnlessHidden (s.hidden (decide (j.val < s.runningOutputSet.fields))) s.draws (0x084 + 8 * j.val)
        (s.fields[j].hi.read s.draws (0x084 + 8 * j.val)) := by
  have hlegal : LegalAccess (BitVec.ofNat 12 (0x084 + 8 * j.val)).toNat .word := by
    rw [fieldHi_toNat]; exact legalAccess_field (by omega) (by omega) (by omega)
  simp only [readResponse_of_legal hlegal, State.readPlace, placeAt_fieldHi]
  rw [fieldHi_toNat]

/-! ### STATUS -/

/-- R25: the bits of the word that STATUS reads as. -/
theorem Status.word_bits (st : Status) :
    st.word.getLsbD 0 = st.busy ∧ st.word.getLsbD 1 = st.done ∧ st.word.getLsbD 2 = st.bool ∧
    st.word.getLsbD 3 = st.haz ∧ st.word.extractLsb' 4 4 = 0 ∧ st.word.extractLsb' 8 4 = st.err ∧
    st.word.extractLsb' 12 20 = 0 := by
  obtain ⟨busy, done, bool, haz, err⟩ := st
  revert busy done bool haz err
  decide

theorem Status.word_running {st : Status} (hbusy : st.busy = true) (hdone : st.done = false)
    (hbool : st.bool = false) (herr : st.err = 0) : st.word = if st.haz then 0x00000009 else 0x00000001 := by
  obtain ⟨busy, done, bool, haz, err⟩ := st
  subst hbusy hdone hbool herr
  cases haz <;> rfl

theorem BlockInvariant.status_word_busy {s : State} (h : BlockInvariant s) (hb : s.status.busy = true) :
    s.status.word = if s.status.haz then 0x00000009 else 0x00000001 := by
  obtain ⟨herr, hbool⟩ := h.busyClear hb
  have hdone : s.status.done = false := by
    by_contra hd
    exact h.notBusyAndDone ⟨hb, Bool.eq_true_of_not_eq_false hd⟩
  exact Status.word_running hb hdone hbool herr

/-! ### Buffers -/

/-- R9: byte `j` of a little-endian sum, as a field of a 32-bit word. -/
theorem extractLsb'_fromLe (bs : Bytes) (j : Nat) (hj : j < bs.length) (hlen : bs.length ≤ 4) :
    (BitVec.ofNat 32 (fromLe bs)).extractLsb' (8 * j) 8 = bs[j] := by
  have hlt : fromLe bs < 2 ^ (8 * bs.length) := by rw [pow_mul]; exact fromLe_lt bs
  have hle : 2 ^ (8 * bs.length) ≤ 2 ^ 32 := Nat.pow_le_pow_right (by decide) (by omega)
  have hbyte : bs[j] = (BitVec.ofNat (8 * bs.length) (fromLe bs)).extractLsb' (8 * j) 8 := by
    simpa [leBytes] using (List.getElem_of_eq (leBytes_fromLe bs.length bs rfl) (i := j) (by simp [leBytes, hj])).symm
  rw [hbyte]
  apply BitVec.eq_of_toNat_eq
  simp only [BitVec.extractLsb'_toNat, BitVec.toNat_ofNat, Nat.mod_eq_of_lt hlt,
    Nat.mod_eq_of_lt (Nat.lt_of_lt_of_le hlt hle)]

theorem fromLe_word_lt (bs : Bytes) :
    (BitVec.ofNat 32 (fromLe bs)).toNat < 2 ^ (8 * bs.length) := by
  rw [BitVec.toNat_ofNat, pow_mul]
  exact Nat.lt_of_le_of_lt (Nat.mod_le _ _) (fromLe_lt bs)

theorem AccessWidth.bytes_le (w : AccessWidth) : w.bytes ≤ 4 := by cases w <;> decide

theorem State.readBuffer_byte (s : State) (hidden : Bool) (a : Nat) {n j : Nat} (hn : n ≤ 4) (hj : j < n) :
    (s.readBuffer hidden a n).extractLsb' (8 * j) 8 = readUnlessHidden hidden s.draws (a + j) (s.byteAt (a + j)) := by
  unfold State.readBuffer
  rw [extractLsb'_fromLe _ j (by simpa using hj) (by simpa using hn)]
  simp

theorem State.readBuffer_lt (s : State) (hidden : Bool) (a n : Nat) :
    (s.readBuffer hidden a n).toNat < 2 ^ (8 * n) := by
  have hlt := fromLe_word_lt ((List.range n).map fun j => readUnlessHidden hidden s.draws (a + j) (s.byteAt (a + j)))
  rwa [List.length_map, List.length_range] at hlt

theorem State.readBuffer_one (s : State) (hidden : Bool) (a : Nat) :
    s.readBuffer hidden a 1 = (readUnlessHidden hidden s.draws a (s.byteAt a)).setWidth 32 := by
  simp [State.readBuffer, fromLe]

theorem State.byteAt_of_none {s : State} {a : Nat} (h : s.mem.read? a = none) :
    s.byteAt a = Config.unspecified 8 s.draws a := by
  simp [State.byteAt, h]

/-- R287: whether the bytes from offset `off` on are hidden: never in IN, in OUT while the running command writes it. -/
def State.bufferHidden (s : State) (off : Nat) : Bool := decide (0x200 ≤ off) && s.hidden s.runningOutputSet.out

theorem State.bufferHidden_iff (s : State) (off : Nat) :
    s.bufferHidden off = true ↔ 0x200 ≤ off ∧ RunningWrites s (fun i => writesOut i = true) := by
  simp [State.bufferHidden, s.hidden_out_iff]

theorem State.not_bufferHidden {s : State} {off : Nat}
    (h : off < 0x200 ∨ ¬RunningWrites s (fun i => writesOut i = true)) : ¬s.bufferHidden off = true := by
  rw [s.bufferHidden_iff, Classical.not_and_iff_not_or_not, Nat.not_le]
  exact h

theorem readResponse_buffer {s : State} {off : BitVec 12} {w : AccessWidth} (hl : LegalAccess off.toNat w)
    (h : 0x100 ≤ off.toNat) :
    (s.readResponse off w).data = s.readBuffer (s.bufferHidden off.toNat) off.toNat w.bytes := by
  have hlt : off.toNat < 0x300 := by
    obtain ⟨-, ⟨-, hregs⟩ | ⟨-, hlt⟩⟩ := hl <;> omega
  rw [readResponse_of_legal hl]
  rcases Nat.lt_or_ge off.toNat 0x200 with hin | hout
  · simp only [State.readPlace, placeAt_in _ h hin, Bool.eq_false_of_not_eq_true (State.not_bufferHidden (.inl hin))]
  · simp only [State.readPlace, placeAt_out _ hout hlt, State.bufferHidden, hout, decide_true, Bool.true_and]

theorem readResponse_buffer_byte {s : State} {off : BitVec 12} {w : AccessWidth} (hl : LegalAccess off.toNat w)
    (h : 0x100 ≤ off.toNat) {j : Nat} (hj : j < w.bytes) :
    (s.readResponse off w).data.extractLsb' (8 * j) 8 =
      readUnlessHidden (s.bufferHidden off.toNat) s.draws (off.toNat + j) (s.byteAt (off.toNat + j)) := by
  rw [readResponse_buffer hl h, State.readBuffer_byte _ _ _ w.bytes_le hj]

theorem readResponse_buffer_lt (s : State) {off : BitVec 12} {w : AccessWidth} (hl : LegalAccess off.toNat w)
    (h : 0x100 ≤ off.toNat) : (s.readResponse off w).data.toNat < 2 ^ (8 * w.bytes) := by
  rw [readResponse_buffer hl h]
  exact s.readBuffer_lt _ _ _

/-- R60, R68: a byte access is lawful everywhere in the buffers. -/
theorem readResponse_buffer_one (s : State) {a : Nat} (h1 : 0x100 ≤ a) (h2 : a < 0x300) :
    (s.readResponse (BitVec.ofNat 12 a) .byte).data =
      (readUnlessHidden (s.bufferHidden a) s.draws a (s.byteAt a)).setWidth 32 := by
  have ha : (BitVec.ofNat 12 a).toNat = a := by rw [BitVec.toNat_ofNat]; omega
  have hl : LegalAccess (BitVec.ofNat 12 a).toNat .byte := by
    rw [ha]; exact ⟨Nat.mod_one a, .inr ⟨h1, h2⟩⟩
  rw [readResponse_buffer hl (by omega), ha]
  exact s.readBuffer_one _ a

theorem leBytes_getElem (w : Nat) {n : Nat} (v : BitVec n) (j : Nat) (h : j < (leBytes w v).length) :
    (leBytes w v)[j] = v.extractLsb' (8 * j) 8 := by
  simp [leBytes]

/-- R61, R66: a lawful write of IN on an idle block stores its bytes, least-significant first. -/
theorem memWrite_in {s : State} {off : BitVec 12} {w : AccessWidth} {v : Word32} (hl : LegalAccess off.toNat w)
    (h1 : 0x100 ≤ off.toNat) (h2 : off.toNat < 0x200) (hb : s.status.busy = false) :
    s.memWrite off w v = (s.storeBytes off.toNat (leBytes w.bytes v)).reply { status := .ok, data := 0 } := by
  rw [memWrite_of_legal hl]
  simp only [State.writePlace, placeAt_in _ h1 h2, State.unlessBusy_idle hb]

end Sys2Proof.Machine
end

section
/-! ## What a read of the window gives (R13, R25, R66, R252, R287) -/

namespace Sys2Proof.Machine

/-- Settles O57: a read is cut into bytes by `readResponse_buffer_byte`, and a write of IN is `storeBytes` of the bytes
of its data. -/
theorem bufferAccessIsLittleEndian : Obligations.BufferAccessIsLittleEndian := by
  intro s off w v hl h
  refine ⟨fun hfree j hj => ?_, readResponse_buffer_lt s hl h, fun hb hin => ?_⟩
  · rw [readResponse_buffer_byte hl h hj, readUnlessHidden_of_not_hidden (State.not_bufferHidden hfree)]
    exact ⟨fun b hbyte => State.byteAt_of_read? hbyte, State.byteAt_of_none⟩
  · refine ⟨_, memWrite_in hl h hin hb, rfl, fun j hj => ?_, fun a ha => ?_⟩
    · have hlen : j < (leBytes w.bytes v).length := by rwa [leBytes_length]
      simp only [State.reply_mem, State.storeBytes_mem]
      rw [Memory.read?_writeBytes_inside _ _ _ _ hlen, leBytes_getElem]
    · simp only [State.reply_mem, State.storeBytes_mem]
      exact Memory.read?_writeBytes_outside _ _ _ _ (by rwa [leBytes_length])

/-- Settles O58: each member of the output set of the running command is hidden, so its read is the free draw. -/
theorem busyReadsOfOutputSetAreFree : Obligations.BusyReadsOfOutputSetAreFree := by
  intro s
  refine ⟨fun hb => ?_, fun hr => ?_, fun hr => ?_, fun hr => ?_, fun j hr => ⟨?_, ?_⟩, fun hr off w hl hout => ?_⟩
  · rw [readResponse_outLen, readUnlessHidden_of_hidden (State.hidden_busy hb)]
  · rw [readResponse_crcRes, readUnlessHidden_of_hidden (s.hidden_crcRes_iff.2 hr)]
  · rw [readResponse_resId, readUnlessHidden_of_hidden (s.hidden_resId_iff.2 hr)]
  · rw [readResponse_resLen, readUnlessHidden_of_hidden (s.hidden_resLen_iff.2 hr)]
  · rw [readResponse_fieldLo, readUnlessHidden_of_hidden ((s.hidden_field_iff j).2 hr)]
  · rw [readResponse_fieldHi, readUnlessHidden_of_hidden ((s.hidden_field_iff j).2 hr)]
  · refine ⟨fun j hj => ?_, readResponse_buffer_lt s hl (by omega)⟩
    rw [readResponse_buffer_byte hl (by omega) hj,
      readUnlessHidden_of_hidden ((s.bufferHidden_iff _).2 ⟨hout, hr⟩)]

/-- Settles O59: what no running command writes is not hidden, so its read is the content held, or the free draw where
that is unspecified. -/
theorem otherReadsGiveHeldValues : Obligations.OtherReadsGiveHeldValues := by
  intro s
  rw [readResponse_status]
  refine ⟨s.status.word_bits, fun hinv hb => hinv.status_word_busy hb, fun hb => ?_, fun hr => ?_, fun hr => ?_,
    fun hr => ?_, fun j hr => ?_, fun a ha => ?_⟩
  · rw [readResponse_outLen, readUnlessHidden_of_not_hidden (State.not_hidden_idle hb true)]
  · rw [readResponse_crcRes, readUnlessHidden_of_not_hidden (mt s.hidden_crcRes_iff.1 hr)]
    exact Content.read_held (·.setWidth 32) _ _ _
  · rw [readResponse_resId, readUnlessHidden_of_not_hidden (mt s.hidden_resId_iff.1 hr)]
    exact Content.read_held (·.setWidth 32) _ _ _
  · rw [readResponse_resLen, readUnlessHidden_of_not_hidden (mt s.hidden_resLen_iff.1 hr)]
    exact Content.read_held (·.setWidth 32) _ _ _
  · have hshown := mt (s.hidden_field_iff j).1 hr
    rw [readResponse_fieldLo, readResponse_fieldHi, readUnlessHidden_of_not_hidden hshown,
      readUnlessHidden_of_not_hidden hshown]
    obtain ⟨hlo, hlo'⟩ := Content.read_held id s.fields[j].lo s.draws (0x080 + 8 * j.val)
    obtain ⟨hhi, hhi'⟩ := Content.read_held id s.fields[j].hi s.draws (0x084 + 8 * j.val)
    exact ⟨hlo, hlo', hhi, hhi'⟩
  · have hfree : a < 0x200 ∨ ¬RunningWrites s (fun i => writesOut i = true) :=
      ha.imp (fun ⟨_, hlt⟩ => hlt) (fun ⟨_, _, hr⟩ => hr)
    rw [readResponse_buffer_one s (by omega) (by omega), readUnlessHidden_of_not_hidden (State.not_bufferHidden hfree)]
    exact ⟨fun b hbyte => by rw [State.byteAt_of_read? hbyte], fun hnone => by rw [State.byteAt_of_none hnone]⟩

end Sys2Proof.Machine
end

section
/-! ## How long an output can be (R41, R113, R141, R146, R152, R170, R201) -/

namespace Sys2Proof.Machine

@[simp] theorem cobsPatch_length (e : CobsEncoder) : (cobsPatch e).length = e.out.length := List.length_set

/-- R141, R143: below 254 data bytes in a block no block closes without an input zero, so each input byte adds one
byte. -/
theorem cobsPut_foldl_length (d : Bytes) (e : CobsEncoder) (h : e.code + d.length < 255) :
    (d.foldl cobsPut e).out.length = e.out.length + d.length := by
  induction d generalizing e with
  | nil => rfl
  | cons b d ih =>
    simp only [List.length_cons] at h
    rw [List.foldl_cons]
    by_cases hb : b = 0
    · have hput : cobsPut e b = cobsNextBlock e := if_pos hb
      rw [hput, ih _ (by simp only [cobsNextBlock]; omega)]
      simp only [cobsNextBlock, List.length_append, cobsPatch_length, List.length_cons, List.length_nil]; omega
    · have hput : cobsPut e b = { out := e.out ++ [b], ci := e.ci, code := e.code + 1 } :=
        (if_neg hb).trans (if_neg (by simp only [Config.cobsMaxCode]; omega))
      rw [hput, ih _ (by simp only; omega)]
      simp only [List.length_append, List.length_cons, List.length_nil]; omega

theorem cobsEncode_of_long {d : Bytes} (h : 250 < d.length) : cobsEncode d = .error .oversize := if_pos h

theorem cobsEncode_ok_length {d r : Bytes} (h : cobsEncode d = .ok r) : d.length ≤ 250 ∧ r.length = d.length + 1 := by
  rcases Nat.lt_or_ge 250 d.length with hlong | hshort
  · cases (cobsEncode_of_long hlong).symm.trans h
  · obtain rfl := Except.ok.inj ((if_neg (Nat.not_lt.mpr hshort)).symm.trans h)
    refine ⟨hshort, ?_⟩
    rw [cobsPatch_length, cobsPut_foldl_length _ _ (by simp only [cobsStart]; omega)]
    simp only [cobsStart, List.length_cons, List.length_nil]; omega

theorem cobsFrame_of_long {d : Bytes} (h : 250 < d.length) : cobsFrame d = .error .oversize := by
  simp only [cobsFrame, cobsEncode_of_long h]

theorem cobsFrame_ok_length {d r : Bytes} (h : cobsFrame d = .ok r) : d.length ≤ 250 ∧ r.length = d.length + 2 := by
  unfold cobsFrame at h
  cases he : cobsEncode d with
  | error c => rw [he] at h; cases h
  | ok u =>
    rw [he] at h
    obtain rfl := Except.ok.inj h
    obtain ⟨hd, hu⟩ := cobsEncode_ok_length he
    exact ⟨hd, by simp [hu]⟩

theorem cobsDecode_ok_length {strict : Bool} {e r : Bytes} (h : cobsDecode strict e = .ok r) : r.length ≤ e.length :=
  Nat.le_of_add_right_le (cobsWalk_length strict e false 0 r h)

theorem cobsUnframe_ok_length {strict : Bool} {f r : Bytes} (h : cobsUnframe strict f = .ok r) :
    r.length ≤ f.length := by
  unfold cobsUnframe at h
  split at h
  · have hlen := cobsDecode_ok_length h
    rw [List.length_dropLast] at hlen
    omega
  · cases h

@[simp] theorem crc16Append_length (d : Bytes) : (crc16Append d).length = d.length + 2 := by simp [crc16Append, le16]

theorem crc16CheckAndStrip_ok_length {u d : Bytes} {c : Word16} (h : crc16CheckAndStrip u = .ok (d, c)) :
    d.length ≤ u.length := by
  unfold crc16CheckAndStrip at h
  split at h
  · simp only at h
    split at h
    · cases h; exact List.length_take_le' _ _
    · cases h
  · cases h

theorem msgPack_of_long {id : Byte} {p : Bytes} (h : 250 < p.length) : msgPack id p = .error .oversize := if_pos h

theorem msgPack_of_short {id : Byte} {p : Bytes} (h : p.length ≤ 250) :
    msgPack id p = .ok (id :: BitVec.ofNat 8 p.length :: p) := if_neg (Nat.not_lt.mpr h)

theorem msgPack_ok_length {id : Byte} {p m : Bytes} (h : msgPack id p = .ok m) :
    p.length ≤ 250 ∧ m.length = p.length + 2 := by
  rcases Nat.lt_or_ge 250 p.length with hlong | hshort
  · cases (msgPack_of_long hlong).symm.trans h
  · obtain rfl := Except.ok.inj ((msgPack_of_short hshort).symm.trans h)
    exact ⟨hshort, rfl⟩

theorem msgUnpack_ok_length {reject : Bool} {b : Bytes} {m : Message} (h : msgUnpack reject b = .ok m) :
    m.payload.length ≤ b.length := by
  unfold msgUnpack at h
  split at h
  · split at h
    · cases h
    · split at h
      · cases h
      · cases h
        exact (List.length_take_le' _ _).trans (by simp only [List.length_cons]; omega)
  · cases h

/-- R234: an input above 246 bytes fails in `msg_pack` or, with its header and CRC, in `cobs_frame`. -/
theorem txFrame_of_long {id : Byte} {p : Bytes} (h : 246 < p.length) : txFrame id p = .error .oversize := by
  unfold txFrame
  rcases Nat.lt_or_ge 250 p.length with hlong | hshort
  · rw [msgPack_of_long hlong]
  · have hframe : cobsFrame (crc16Append (id :: BitVec.ofNat 8 p.length :: p)) = .error .oversize :=
      cobsFrame_of_long (by simp only [crc16Append_length, List.length_cons]; omega)
    simp only [msgPack_of_short hshort, hframe]

theorem txFrame_ok_length {id : Byte} {p f : Bytes} {c : Word16} (h : txFrame id p = .ok (f, c)) :
    f.length ≤ 252 := by
  unfold txFrame at h
  split at h
  · cases h
  · split at h
    · cases h
    · next hframe =>
      cases h
      have := cobsFrame_ok_length hframe
      omega

theorem rxFrame_ok_length {strict reject : Bool} {f : Bytes} {m : Message} {c : Word16}
    (h : rxFrame strict reject f = .ok (m, c)) : m.payload.length ≤ f.length := by
  unfold rxFrame at h
  split at h
  · cases h
  · next hu =>
    split at h
    · cases h
    · next hd =>
      split at h
      · cases h
      · next hm =>
        cases h
        exact (msgUnpack_ok_length hm).trans ((crc16CheckAndStrip_ok_length hd).trans (cobsUnframe_ok_length hu))

/-- R204: the loop of `struct_pack` gives at most 8 bytes a field, or one of its two errors. -/
theorem packFields_outcomes (fvs : List (FieldDesc × Word64)) :
    (∃ out, packFields fvs = .ok out ∧ out.length ≤ 8 * fvs.length) ∨ packFields fvs = .error .enumUnknown ∨
      packFields fvs = .error .fieldRange := by
  induction fvs with
  | nil => exact .inl ⟨[], rfl, Nat.le_refl 0⟩
  | cons fv rest ih =>
    obtain ⟨f, v⟩ := fv
    simp only [packFields]
    split
    · split
      · rcases ih with ⟨out, ho, hlen⟩ | he | he
        · have hw : f.width.bytes ≤ 8 := by cases f.width <;> decide
          refine .inl ⟨_, by rw [ho], ?_⟩
          rw [List.length_append, leBytes_length, List.length_cons]
          omega
        · exact .inr (.inl (by rw [he]))
        · exact .inr (.inr (by rw [he]))
      · exact .inr (.inl rfl)
    · exact .inr (.inr rfl)

theorem structPack_ok_length {l : Layout} {vs : List Word64} {out : Bytes} (h : structPack l vs = .ok out) :
    out.length ≤ 128 := by
  have hzip : (l.fields.zip vs).length ≤ 16 := by
    rw [List.length_zip]; exact (Nat.min_le_left _ _).trans l.atMost16
  rcases packFields_outcomes (l.fields.zip vs) with ⟨out', ho, hlen⟩ | he | he
  · obtain rfl := Except.ok.inj (ho.symm.trans h)
    omega
  · cases he.symm.trans h
  · cases he.symm.trans h

theorem structUnpack_ok_length {l : Layout} {b : Bytes} {vs : List Word64} (h : structUnpack l b = .ok vs) :
    vs.length = l.fields.length := by
  rcases Nat.lt_or_ge b.length (fieldsWidth l.fields) with hshort | hlong
  · cases (structUnpack_of_short hshort).symm.trans h
  · exact (unpackFields_ok ((structUnpack_of_long hlong).symm.trans h)).1

end Sys2Proof.Machine
end

section
/-! ## What the body of a command writes, and when it fails (R28, R94, R252, R255) -/

namespace Sys2Proof.Machine

/-- R94, R252: the effect stays inside the output set of the command `i`, by the tables of the spec, and its byte
output fits OUT. For a given command and effect each field but the last is a look into the tables. -/
structure Effect.Within (e : Effect) (i : Instr) (s : State) : Prop where
  crcRes : writesCrcRes i = false → e.crcRes = none := by simp [writesCrcRes]
  resId : writesResId i = false → e.resId = none := by simp [writesResId]
  resLen : writesResLen i = false → e.resLen = none := by simp [writesResLen]
  fields : ∀ j : Fin 16, ¬WritesField i s j → e.fields.length ≤ j.val := by simp
  out : writesOut i = false → e.out = [] := by simp [writesOut]
  bool : i ≠ .crcVerify → i ≠ .msgIsResponse → i ≠ .msgClassify → e.bool = false := by simp
  fits : e.out.length ≤ 256

theorem State.withInput_ok {s : State} {cap : Nat} {body : Bytes → Except ErrorCode Effect} {e : Effect}
    (h : s.withInput cap body = .ok e) : s.input.length ≤ cap ∧ body s.input = .ok e := by
  rw [State.input_length]
  rcases Nat.lt_or_ge cap s.inLen.toNat with hlong | hshort
  · cases (State.withInput_gt hlong).symm.trans h
  · exact ⟨hshort, (State.withInput_le hshort).symm.trans h⟩

theorem bytesOut_ok {r : Except ErrorCode Bytes} {e : Effect} (h : bytesOut r = .ok e) :
    ∃ bs, r = .ok bs ∧ e = { out := bs } := by
  cases r with
  | ok bs => exact ⟨bs, rfl, (Except.ok.inj h).symm⟩
  | error c => cases h

theorem State.withInput_bytesOut_ok {s : State} {cap : Nat} {f : Bytes → Except ErrorCode Bytes} {e : Effect}
    (h : s.withInput cap (fun d => bytesOut (f d)) = .ok e) :
    ∃ bs, s.input.length ≤ cap ∧ f s.input = .ok bs ∧ e = { out := bs } := by
  obtain ⟨hin, h⟩ := State.withInput_ok h
  obtain ⟨bs, hbs, he⟩ := bytesOut_ok h
  exact ⟨bs, hin, hbs, he⟩

theorem State.fieldCount_of_layout {s : State} {l : Layout} (h : s.selectedLayout = some l) :
    s.fieldCount = l.fields.length := by
  simp only [State.fieldCount, h]

theorem crcCheckStripBody_ok {s : State} {e : Effect} (h : crcCheckStripBody s = .ok e) :
    ∃ c d, e = { crcRes := some c, out := d } ∧ d.length ≤ 256 := by
  obtain ⟨hin, h⟩ := State.withInput_ok h
  split at h
  · next d c hstrip => exact ⟨c, d, (Except.ok.inj h).symm, (crc16CheckAndStrip_ok_length hstrip).trans hin⟩
  · cases h

theorem msgUnpackBody_ok {s : State} {e : Effect} (h : msgUnpackBody s = .ok e) :
    ∃ m : Message, e = { resId := some m.id, resLen := some m.length, out := m.payload } ∧
      m.payload.length ≤ 256 := by
  obtain ⟨hin, h⟩ := State.withInput_ok h
  split at h
  · next m hm => exact ⟨m, (Except.ok.inj h).symm, (msgUnpack_ok_length hm).trans hin⟩
  · cases h

theorem structPackBody_ok {s : State} {e : Effect} (h : structPackBody s = .ok e) :
    ∃ bs, e = { out := bs } ∧ bs.length ≤ 256 := by
  unfold structPackBody at h
  split at h
  · cases h
  · obtain ⟨bs, hp, rfl⟩ := bytesOut_ok h
    exact ⟨bs, rfl, (structPack_ok_length hp).trans (by decide)⟩

theorem structUnpackBody_ok {s : State} {e : Effect} (h : structUnpackBody s = .ok e) :
    ∃ vs, e = { fields := vs } ∧ vs.length = s.fieldCount := by
  obtain ⟨-, h⟩ := State.withInput_ok h
  split at h
  · cases h
  · next l hl =>
    split at h
    · next vs hvs =>
      exact ⟨vs, (Except.ok.inj h).symm, (structUnpack_ok_length hvs).trans (State.fieldCount_of_layout hl).symm⟩
    · cases h

theorem txFrameBody_ok {s : State} {e : Effect} (h : txFrameBody s = .ok e) :
    ∃ c f, e = { crcRes := some c, out := f } ∧ f.length ≤ 256 := by
  unfold txFrameBody at h
  split at h
  · next f c hf => exact ⟨c, f, (Except.ok.inj h).symm, (txFrame_ok_length hf).trans (by decide)⟩
  · cases h

theorem rxFrameBody_ok {s : State} {e : Effect} (h : rxFrameBody s = .ok e) :
    ∃ (c : Word16) (m : Message),
      e = { crcRes := some c, resId := some m.id, resLen := some m.length, out := m.payload } ∧
      m.payload.length ≤ 256 := by
  obtain ⟨hin, h⟩ := State.withInput_ok h
  split at h
  · next m c hm => exact ⟨c, m, (Except.ok.inj h).symm, (rxFrame_ok_length hm).trans hin⟩
  · cases h

/-- R94, R252: a body that succeeds writes its command's output set and nothing else, and no more bytes than OUT has. -/
theorem commandBody_ok_within {i : Instr} {s : State} {e : Effect} (h : commandBody i s = .ok e) : e.Within i s := by
  cases i <;> dsimp only [commandBody] at h
  case crcCalc | crcUpdate | crcVerify =>
    obtain ⟨-, h⟩ := State.withInput_ok h
    obtain rfl := Except.ok.inj h
    exact { fits := Nat.zero_le _ }
  case crcAppend =>
    obtain ⟨hin, h⟩ := State.withInput_ok h
    obtain rfl := Except.ok.inj h
    exact { fits := by rw [crc16Append_length]; exact Nat.add_le_add_right hin 2 }
  case crcCheckStrip =>
    obtain ⟨c, d, rfl, hlen⟩ := crcCheckStripBody_ok h
    exact { fits := hlen }
  case cobsEncode =>
    obtain ⟨bs, -, hbs, rfl⟩ := State.withInput_bytesOut_ok h
    have hlen := cobsEncode_ok_length hbs
    exact { fits := by simp only; omega }
  case cobsDecode =>
    obtain ⟨bs, hin, hbs, rfl⟩ := State.withInput_bytesOut_ok h
    exact { fits := (cobsDecode_ok_length hbs).trans hin }
  case cobsFrame =>
    obtain ⟨bs, -, hbs, rfl⟩ := State.withInput_bytesOut_ok h
    have hlen := cobsFrame_ok_length hbs
    exact { fits := by simp only; omega }
  case cobsUnframe =>
    obtain ⟨bs, hin, hbs, rfl⟩ := State.withInput_bytesOut_ok h
    exact { fits := (cobsUnframe_ok_length hbs).trans hin }
  case msgPack =>
    obtain ⟨bs, -, hbs, rfl⟩ := State.withInput_bytesOut_ok h
    have hlen := msgPack_ok_length hbs
    exact { fits := by simp only; omega }
  case msgUnpack =>
    obtain ⟨m, rfl, hlen⟩ := msgUnpackBody_ok h
    exact { fits := hlen }
  case msgIsResponse | msgGetRequestId | msgClassify =>
    obtain rfl := Except.ok.inj h
    exact { fits := Nat.zero_le _ }
  case structPack =>
    obtain ⟨bs, rfl, hlen⟩ := structPackBody_ok h
    exact { fits := hlen }
  case structUnpack =>
    obtain ⟨vs, rfl, hlen⟩ := structUnpackBody_ok h
    exact { fields := fun j hj => hlen.trans_le (Nat.not_lt.mp fun hlt => hj ⟨rfl, hlt⟩), fits := Nat.zero_le _ }
  case txFrame =>
    obtain ⟨c, f, rfl, hlen⟩ := txFrameBody_ok h
    exact { fits := hlen }
  case rxFrame =>
    obtain ⟨c, m, rfl, hlen⟩ := rxFrameBody_ok h
    exact { fits := hlen }

/-- R255 (1): the length check comes first. -/
theorem commandBody_oversize {i : Instr} {s : State} {cap : Nat} (hcap : inputCap i = some cap)
    (hlong : cap < s.inLen.toNat) : commandBody i s = .error .oversize := by
  cases i with
  | msgIsResponse | msgGetRequestId | msgClassify | structPack => cases hcap
  | txFrame =>
    obtain rfl := Option.some.inj hcap
    have htx : txFrame s.msgId s.input = .error .oversize := txFrame_of_long (by rwa [State.input_length])
    simp only [commandBody, txFrameBody, htx]
  | _ =>
    obtain rfl := Option.some.inj hcap
    dsimp only [commandBody]
    exact State.withInput_gt hlong

theorem structPackBody_ne_oversize (s : State) : structPackBody s ≠ .error .oversize := by
  unfold structPackBody
  split
  · nofun
  · next l _ =>
    rcases packFields_outcomes (l.fields.zip s.fieldValues) with ⟨out, ho, -⟩ | he | he
    · simp [structPack, ho, bytesOut]
    · simp [structPack, he, bytesOut]
    · simp [structPack, he, bytesOut]

theorem commandBody_ne_oversize {i : Instr} (h : inputCap i = none) (s : State) :
    commandBody i s ≠ .error .oversize := by
  cases i with
  | structPack => exact structPackBody_ne_oversize s
  | msgIsResponse | msgGetRequestId | msgClassify => nofun
  | _ => cases h

theorem ErrorCode.code_eq_one_iff (c : ErrorCode) : c.code = 1 ↔ c = .oversize := by cases c <;> decide

/-- Settles O18: `commandBody_oversize`, and `commandBody_ne_oversize` for the four commands that do not read IN. -/
theorem oversizeInputIsCheckedFirst : Obligations.OversizeInputIsCheckedFirst := by
  refine fun i s => ⟨fun cap hcap hlong => ⟨_, exec_of_error (commandBody_oversize hcap hlong), rfl, rfl⟩,
    fun t hcap ht herr => ?_⟩
  rcases exec_cases ht with ⟨e, -, rfl⟩ | ⟨c, hc, rfl⟩
  · cases herr
  · obtain rfl := c.code_eq_one_iff.1 herr
    exact commandBody_ne_oversize hcap s hc

end Sys2Proof.Machine
end

section
/-! ## What a completion changes (R28, R32, R41, R94, R252 to R254, R289) -/

namespace Sys2Proof.Machine

theorem Effect.Within.outLen_toNat {e : Effect} {i : Instr} {s : State} (h : e.Within i s) :
    (s.writeEffect e).outLen.toNat = e.out.length := by
  rw [State.writeEffect_outLen, BitVec.toNat_ofNat]
  exact Nat.mod_eq_of_lt (Nat.lt_of_le_of_lt h.fits (by decide))

theorem writeFields_get_of_le {fs : Vector FieldReg 16} {vs : List Word64} {j : Fin 16} (h : vs.length ≤ j.val) :
    (writeFields fs vs)[j] = fs[j] := by
  rw [writeFields_get, dif_neg (Nat.not_lt.mpr h)]

/-- R252: an error forgets no FIELD register outside the output set. -/
theorem State.forgetOutputs_field {s : State} {i : Instr} {j : Fin 16} (h : ¬WritesField i s j) :
    (s.forgetOutputs (outputSetOf i s.fieldCount)).fields[j] = s.fields[j] := by
  rw [State.forgetOutputs_fields, outputSetOf_fields, forgetFields_get, if_neg]
  split
  · next hi => exact fun hlt => h ⟨hi, hlt⟩
  · exact Nat.not_lt_zero _

/-- R254: an error forgets no byte outside OUT. -/
theorem State.forgetOutputs_read?_outside (s : State) (o : OutputSet) {a : Nat} (h : a < 0x200 ∨ 0x300 ≤ a) :
    (s.forgetOutputs o).mem.read? a = s.mem.read? a := by
  rcases s.forgetOutputs_mem_cases o with ⟨-, hm⟩ | ⟨-, hm⟩
  · rw [hm, Memory.read?_forget, if_neg (by simp only [Config.outBase, Config.bufCap]; omega)]
  · rw [hm]

theorem State.forgetOutputs_mem_of_not_out {s : State} {i : Instr} (h : writesOut i = false) :
    (s.forgetOutputs (outputSetOf i s.fieldCount)).mem = s.mem := by
  rw [State.forgetOutputs_mem, outputSetOf_out, h]
  exact if_neg Bool.false_ne_true

/-- Settles O15: after a success the effect is within the output set, and after an error what is not in the set is not
forgotten. -/
theorem completionWritesOnlyItsOutputSet : Obligations.CompletionWritesOnlyItsOutputSet := by
  intro i s t ht
  rcases exec_cases ht with ⟨e, he, rfl⟩ | ⟨c, -, rfl⟩
  · have hw := commandBody_ok_within he
    refine ⟨rfl, rfl, rfl, rfl, rfl, rfl, rfl, rfl, rfl, rfl, rfl, fun h => ?_, fun h => ?_, fun h => ?_,
      fun j hj => ?_, fun a ha => ?_, fun h => ?_, hw.bool⟩
    · simp [hw.crcRes h]
    · simp [hw.resId h]
    · simp [hw.resLen h]
    · exact writeFields_get_of_le (hw.fields j hj)
    · exact Memory.read?_writeBytes_outside _ _ _ _ (ha.imp_right (Nat.le_trans (Nat.add_le_add_left hw.fits 0x200)))
    · simp [hw.out h]
  · refine ⟨rfl, rfl, rfl, rfl, rfl, rfl, rfl, rfl, rfl, rfl, rfl, fun h => ?_, fun h => ?_, fun h => ?_,
      fun j hj => ?_, fun a ha => ?_, fun h => ⟨rfl, fun a => ?_⟩, fun _ _ _ => rfl⟩
    · simp [outputSetOf_crcRes, h]
    · simp [outputSetOf_resId, h]
    · simp [outputSetOf_resLen, h]
    · exact State.forgetOutputs_field hj
    · exact s.forgetOutputs_read?_outside _ ha
    · rw [State.finish_mem, State.forgetOutputs_mem_of_not_out h]

/-- Settles O16: a success stores its output from 0x200 on, and OUT_LEN is that output's length. -/
theorem successStoresOnlyBelowOutLen : Obligations.SuccessStoresOnlyBelowOutLen := by
  intro i s t ht herr a ha
  rcases exec_cases ht with ⟨e, he, rfl⟩ | ⟨c, -, rfl⟩
  · rw [State.finish_outLen, (commandBody_ok_within he).outLen_toNat] at ha
    exact Memory.read?_writeBytes_outside _ _ _ _ ha
  · exact absurd herr c.code_ne_zero

end Sys2Proof.Machine
end

section
/-! ## The invariant of the block (R27 to R32, R44, R250, R254) -/

namespace Sys2Proof.Machine

/-- Settles O7: each clause is read off the reset values, and the empty byte list is canonical. -/
theorem resetStateMeetsBlockInvariant : Obligations.ResetStateMeetsBlockInvariant where
  notBusyAndDone h := by cases h.1
  busyClear h := by cases h
  idleSinceReset _ _ := ⟨rfl, rfl, rfl, rfl⟩
  errCodeUsed := by decide
  errClears h := absurd rfl h
  outLenInBuffer := by decide
  memoryCanonical := Memory.wf_nil

/-- The invariant says nothing of HAZ, the operands and the result registers. -/
theorem BlockInvariant.of_same_results {s t : State} (h : BlockInvariant s)
    (hst : t.status = { s.status with haz := t.status.haz }) (hout : t.outLen = s.outLen)
    (hop : t.latchedOp = s.latchedOp) (hmem : t.mem.wf) : BlockInvariant t where
  notBusyAndDone := by rw [hst]; exact h.notBusyAndDone
  busyClear := by rw [hst]; exact h.busyClear
  idleSinceReset := by rw [hst, hout, hop]; exact h.idleSinceReset
  errCodeUsed := by rw [hst]; exact h.errCodeUsed
  errClears := by rw [hst, hout]; exact h.errClears
  outLenInBuffer := by rw [hout]; exact h.outLenInBuffer
  memoryCanonical := hmem

/-- R91: an acceptance clears DONE, ERR and BOOL. -/
theorem BlockInvariant.accept {s : State} (h : BlockInvariant s) (w : Word32) : BlockInvariant (s.accept w) where
  notBusyAndDone h := by cases h.2
  busyClear _ := ⟨rfl, rfl⟩
  idleSinceReset h := by cases h
  errCodeUsed := by simp
  errClears h := absurd rfl h
  outLenInBuffer := h.outLenInBuffer
  memoryCanonical := h.memoryCanonical

/-- R253, R254: the end of a completion meets the invariant when the outputs written before it fit. -/
theorem blockInvariant_finish {s : State} {bool : Bool} {err : BitVec 4} (h15 : err ≠ 15)
    (herr : err ≠ 0 → s.outLen = 0 ∧ bool = false) (hout : s.outLen.toNat ≤ 256) (hmem : s.mem.wf) :
    BlockInvariant (s.finish bool err) where
  notBusyAndDone h := by cases h.1
  busyClear h := by cases h
  idleSinceReset _ h := by cases h
  errCodeUsed := h15
  errClears := herr
  outLenInBuffer := hout
  memoryCanonical := hmem

theorem blockInvariant_failed {s : State} (h : BlockInvariant s) (o : OutputSet) (c : ErrorCode) :
    BlockInvariant ((s.forgetOutputs o).finish false c.code) := by
  refine blockInvariant_finish c.code_ne_15 (fun _ => ⟨rfl, rfl⟩) (Nat.zero_le _) ?_
  rcases s.forgetOutputs_mem_cases o with ⟨-, hm⟩ | ⟨-, hm⟩
  · rw [hm]; exact Memory.wf_forget _ _ h.memoryCanonical
  · rw [hm]; exact h.memoryCanonical

theorem blockInvariant_succeeded {i : Instr} {s : State} {e : Effect} (h : BlockInvariant s) (hw : e.Within i s) :
    BlockInvariant ((s.writeEffect e).finish e.bool 0) :=
  blockInvariant_finish (by decide) (fun h0 => absurd rfl h0) (hw.outLen_toNat.trans_le hw.fits)
    (Memory.wf_writeBytes _ _ h.memoryCanonical (by decide) (Nat.add_le_add_left hw.fits _))

theorem blockInvariant_exec {i : Instr} {s t : State} (h : BlockInvariant s) (ht : exec i s = .next t) :
    BlockInvariant t := by
  rcases exec_cases ht with ⟨e, he, rfl⟩ | ⟨c, -, rfl⟩
  · exact blockInvariant_succeeded h (commandBody_ok_within he)
  · exact blockInvariant_failed h _ c

theorem blockInvariant_engineTurn {s t : State} (h : BlockInvariant s) (ht : engineTurn s = .next t) :
    BlockInvariant t := by
  rcases engineTurn_cases s with ⟨-, hs⟩ | ⟨-, i, -, hs⟩ | ⟨-, -, hs⟩
  · obtain rfl := Host.Outcome.next.inj (hs.symm.trans ht)
    exact h
  · exact blockInvariant_exec h (hs.symm.trans ht)
  · obtain rfl := Host.Outcome.next.inj (hs.symm.trans ht)
    exact blockInvariant_failed h reservedOutputSet .illegalOp

theorem BlockInvariant.reply {s : State} (h : BlockInvariant s) (r : BusResponse) : BlockInvariant (s.reply r) :=
  h.of_same_results rfl rfl rfl h.memoryCanonical

/-- R62: a write to IN stores inside the buffers. -/
theorem Memory.wf_storeIn {m : Memory} {off : Nat} (h : m.wf) (hoff : placeAt off = .inBuffer) (w : AccessWidth)
    (v : Word32) : (m.writeBytes off (leBytes w.bytes v)).wf := by
  obtain ⟨hlo, hhi⟩ := placeAt_inBuffer off hoff
  have hw := w.bytes_le
  exact Memory.wf_writeBytes _ _ h hlo (by rw [leBytes_length]; simp only [Config.outBase, Config.bufCap]; omega)

theorem BlockInvariant.writePlace {s : State} (h : BlockInvariant s) (off : Nat) (w : AccessWidth) (v : Word32) :
    BlockInvariant (s.writePlace off w.bytes v) := by
  have hmem := h.memoryCanonical
  rcases s.writePlace_cases off w.bytes v with he | he | ⟨-, he⟩ |
    ⟨-, he | he | he | he | he | ⟨i, he⟩ | ⟨i, he⟩ | ⟨hoff, he⟩⟩ <;> rw [he]
  on_goal 11 => exact h.of_same_results rfl rfl rfl (Memory.wf_storeIn hmem hoff w v)
  on_goal 4 => exact h.accept v
  all_goals exact h.of_same_results rfl rfl rfl hmem

theorem BlockInvariant.access {s : State} (h : BlockInvariant s) (a : Access) : BlockInvariant (s.access a) := by
  cases a with
  | read off w =>
    show BlockInvariant (s.memRead off w)
    rcases s.memRead_eq off w with he | he
    · exact he ▸ h.of_same_results rfl rfl rfl h.memoryCanonical
    · exact he ▸ h.reply _
  | write off w v =>
    show BlockInvariant (s.memWrite off w v)
    rcases s.memWrite_eq off w v with ⟨-, he⟩ | ⟨-, he⟩
    · exact he ▸ (h.writePlace off.toNat w v).reply _
    · exact he ▸ h.reply _

theorem BlockInvariant.setAgenda {s : State} (h : BlockInvariant s) (es : List Event) :
    BlockInvariant (s.setAgenda es) :=
  h.of_same_results rfl rfl rfl h.memoryCanonical

theorem blockInvariant_resetEvent (s : State) : BlockInvariant s.resetEvent :=
  BlockInvariant.of_same_results resetStateMeetsBlockInvariant rfl rfl rfl Memory.wf_nil

/-- Settles O8, agent by agent: an access, a turn of the engine, reset. -/
theorem everyStepKeepsBlockInvariant : Obligations.EveryStepKeepsBlockInvariant := by
  intro s t h ht
  rcases step_cases s with ⟨a, rest, -, hs⟩ | ⟨rest, -, hs⟩ | ⟨rest, -, hs⟩
  · obtain rfl := Host.Outcome.next.inj (hs.symm.trans ht)
    exact (h.setAgenda rest).access a
  · exact blockInvariant_engineTurn (h.setAgenda rest) (hs.symm.trans ht)
  · obtain rfl := Host.Outcome.next.inj (hs.symm.trans ht)
    exact blockInvariant_resetEvent _

/-- Settles O6: the state after reset is idle, so the engine's turn right after it is none. -/
theorem resetGivesResetValues : Obligations.ResetGivesResetValues := by
  intro s rest ha
  refine ⟨_, step_reset ha, rfl, rfl, rfl, rfl, rfl, rfl, rfl, rfl, rfl, fun j => ?_, fun _ => rfl, rfl, rfl, rfl,
    fun es hes => ?_⟩
  · exact Vector.getElem_replicate j.isLt
  · exact (step_engine hes).trans (engineTurn_idle rfl)

end Sys2Proof.Machine
end

section
/-! ## Operands and the registers the host writes (R23 to R25, R31 to R39, R61, R67, R69, R94, R285) -/

namespace Sys2Proof.Machine

/-! ### Operands -/

/-- R67: the two halves side by side. -/
theorem append_eq_shiftLeft_or (hi lo : Word32) : (hi ++ lo : Word64) = (hi.setWidth 64 <<< 32) ||| lo.setWidth 64 := by
  rw [BitVec.append_def, BitVec.shiftLeftZeroExtend_eq]
  rfl

/-- Settles O20, by the laws of `State.input` and, for a FIELD operand, the two halves side by side. -/
theorem operandsAreAssembledFromRegisters : Obligations.OperandsAreAssembledFromRegisters := by
  intro s
  refine ⟨s.input_length, fun j b _ hj hb => ?_, fun j lo hi hf => ?_, fun j => ?_, fun j hj => ?_⟩
  · rw [s.input_getElem? j hj, State.byteAt_of_read? hb]
  · have hv : s.fieldValue j = hi ++ lo := by simp only [State.fieldValue, hf, Content.read]
    rw [hv, append_eq_shiftLeft_or]
  · simp [State.fieldValues]
  · simp only [State.selectedLayout, hj]
    rfl

/-! ### Lawful writes of the register region -/

theorem legalAccess_word {off : Nat} (h : LegalAccess off .word) (hreg : off < 0x100) :
    off = 0x000 ∨ off = 0x004 ∨ off = 0x008 ∨ off = 0x00C ∨ off = 0x010 ∨ off = 0x014 ∨ off = 0x018 ∨ off = 0x01C ∨
      off = 0x020 ∨ off = 0x024 ∨ 0x080 ≤ off := by
  obtain ⟨halign, hplace⟩ := h
  simp only [AccessWidth.bytes] at halign
  omega

/-- R39: what stands in the FIELD region. -/
theorem placeAt_field_cases {off : Nat} (h1 : 0x080 ≤ off) (h2 : off < 0x100) :
    (∃ i, placeAt off = .fieldLo i) ∨ ∃ i, placeAt off = .fieldHi i := by
  rw [placeAt_field off h1 h2, fieldRegister]
  split
  · exact .inl ⟨_, rfl⟩
  · exact .inr ⟨_, rfl⟩

/-- R285: a write that would store into an operand register or IN is dropped while busy. -/
theorem writePlace_operand_busy {s : State} {off : Nat} {w : AccessWidth} (hb : s.status.busy = true)
    (h : StoresOperand off w) (n : Nat) (v : Word32) : s.writePlace off n v = s.dropWrite := by
  obtain ⟨-, rfl | rfl | rfl | rfl | ⟨h1, h2⟩⟩ := h
  iterate 4 exact State.unlessBusy_busy hb
  rcases Nat.lt_or_ge off 0x100 with hfield | hin
  · rcases placeAt_field_cases h1 hfield with ⟨i, hp⟩ | ⟨i, hp⟩ <;>
      simp only [State.writePlace, hp, State.unlessBusy_busy hb]
  · simp only [State.writePlace, placeAt_in off hin h2, State.unlessBusy_busy hb]

/-- R69: a write to a result register or OUT changes nothing. -/
theorem writePlace_readOnly {off : Nat} {w : AccessWidth} (h : StoresReadOnly off w) (s : State) (n : Nat)
    (v : Word32) : s.writePlace off n v = s := by
  obtain ⟨-, rfl | rfl | rfl | rfl | ⟨h1, h2⟩⟩ := h
  iterate 4 rfl
  simp only [State.writePlace, placeAt_out off h1 h2]

/-- R25, R29: a STATUS write clears HAZ where bit 3 is set. -/
theorem writePlace_status (s : State) (n : Nat) (v : Word32) :
    s.writePlace 0x004 n v = { s with status := { s.status with haz := s.status.haz && !v.getLsbD 3 } } := by
  show (if v.getLsbD 3 then s.clearHaz else s) = _
  cases v.getLsbD 3 with
  | true => simp [State.clearHaz, Status.hazCleared]
  | false => simp

/-- Settles O53: what `writePlace` does at each of the three classes of offset. -/
theorem writesWhileBusyAreDropped : Obligations.WritesWhileBusyAreDropped := by
  refine fun s off w v => ⟨fun hb h => ?_, ?_, fun h => ?_⟩
  · rw [memWrite_of_legal h.1, writePlace_operand_busy hb h]
    rfl
  · rw [memWrite_of_legal ⟨rfl, .inl ⟨rfl, .inl (by decide)⟩⟩]
    exact congrArg (State.reply · _) (writePlace_status s 4 v)
  · rw [memWrite_of_legal h.1, writePlace_readOnly h]
    rfl

/-! ### Implemented bits -/

/-- R23: nothing is outside the low `n` bits of a zero-extended `n`-bit value. -/
theorem setWidth_and_not_lowMask {n : Nat} (v : BitVec n) :
    v.setWidth 32 &&& ~~~BitVec.ofNat 32 (2 ^ n - 1) = 0 := by
  apply BitVec.eq_of_getLsbD_eq
  intro i hi
  by_cases hin : i < n
  · simp [hin, BitVec.getLsbD_ofNat, Nat.testBit_two_pow_sub_one]
  · simp [BitVec.getLsbD_of_ge v i (by omega)]

/-- R24: truncation to `n` bits looks at the low `n` bits alone. -/
theorem setWidth_eq_of_and_lowMask {n : Nat} (hn : n ≤ 32) {v v' : Word32}
    (h : v &&& BitVec.ofNat 32 (2 ^ n - 1) = v' &&& BitVec.ofNat 32 (2 ^ n - 1)) : v.setWidth n = v'.setWidth n := by
  apply BitVec.eq_of_getLsbD_eq
  intro i hi
  have hbit : (v &&& BitVec.ofNat 32 (2 ^ n - 1)).getLsbD i =
      (v' &&& BitVec.ofNat 32 (2 ^ n - 1)).getLsbD i := by rw [h]
  simpa only [BitVec.getLsbD_and, BitVec.getLsbD_ofNat, Nat.testBit_two_pow_sub_one, BitVec.getLsbD_setWidth, hi,
    Nat.lt_of_lt_of_le hi hn, decide_true, Bool.true_and, Bool.and_true] using hbit

theorem readMask_field {off : Nat} (h : 0x080 ≤ off) : readMask off = 0xFFFFFFFF := by
  unfold readMask
  split
  on_goal 11 => rfl
  all_goals omega

theorem writeMask_field {off : Nat} (h : 0x080 ≤ off) : writeMask off = 0xFFFFFFFF := by
  unfold writeMask
  split
  on_goal 11 => rfl
  all_goals omega

theorem Status.word_and_not_mask (st : Status) : st.word &&& ~~~(0xF0F : Word32) = 0 := by
  obtain ⟨busy, done, bool, haz, err⟩ := st
  revert busy done bool haz err
  decide

theorem readPlace_and_not_readMask (s : State) {off : Nat} (h : LegalAccess off .word) (hreg : off < 0x100) :
    s.readPlace off 4 &&& ~~~readMask off = 0 := by
  rcases legalAccess_word h hreg with rfl | rfl | rfl | rfl | rfl | rfl | rfl | rfl | rfl | rfl | hfield
  · exact BitVec.zero_and
  · exact s.status.word_and_not_mask
  iterate 8 exact setWidth_and_not_lowMask _
  rw [readMask_field hfield]
  exact BitVec.and_zero

theorem State.accept_congr (s : State) {v v' : Word32} (h : v &&& 0x1F = v' &&& 0x1F) : s.accept v = s.accept v' := by
  have hop : opField v = opField v' := by
    rw [opField, opField, ← BitVec.setWidth_eq_extractLsb' (by decide), ← BitVec.setWidth_eq_extractLsb' (by decide)]
    exact setWidth_eq_of_and_lowMask (by decide) h
  simp only [State.accept, hop]

theorem writePlace_congr_writeMask (s : State) {off : Nat} {v v' : Word32} (h : LegalAccess off .word)
    (hreg : off < 0x100) (hv : v &&& writeMask off = v' &&& writeMask off) (n : Nat) :
    s.writePlace off n v = s.writePlace off n v' := by
  rcases legalAccess_word h hreg with rfl | rfl | rfl | rfl | rfl | rfl | rfl | rfl | rfl | rfl | hfield
  · exact congrArg s.unlessBusy (s.accept_congr hv)
  · have hbit : v.getLsbD 3 = v'.getLsbD 3 := by
      have h3 : (v &&& 0x8).getLsbD 3 = (v' &&& 0x8).getLsbD 3 := congrArg (BitVec.getLsbD · 3) hv
      simpa using h3
    rw [writePlace_status, writePlace_status, hbit]
  · exact congrArg (fun x => s.unlessBusy (s.setInLen x)) (setWidth_eq_of_and_lowMask (by decide) hv)
  · rfl
  · exact congrArg (fun x => s.unlessBusy (s.setCrcArg x)) (setWidth_eq_of_and_lowMask (by decide) hv)
  · rfl
  · exact congrArg (fun x => s.unlessBusy (s.setMsgId x)) (setWidth_eq_of_and_lowMask (by decide) hv)
  · rfl
  · rfl
  · exact congrArg (fun x => s.unlessBusy (s.setLayout x)) (setWidth_eq_of_and_lowMask (by decide) hv)
  · rw [writeMask_field hfield] at hv
    obtain rfl : v = v' := (BitVec.and_allOnes.symm.trans hv).trans BitVec.and_allOnes
    rfl

/-- Settles O54: `readPlace` and `writePlace` against the two masks, register by register. -/
theorem reservedBitsReadZeroAndIgnoreWrites : Obligations.ReservedBitsReadZeroAndIgnoreWrites := by
  refine fun s off v v' h hreg => ⟨?_, fun hv => ?_⟩
  · rw [readResponse_of_legal h]
    exact readPlace_and_not_readMask s h hreg
  · rw [memWrite_of_legal h, memWrite_of_legal h, writePlace_congr_writeMask s h hreg hv]

/-- Settles O55: on an idle block each write is the register's own update. -/
theorem operandRegistersStoreAndRead : Obligations.OperandRegistersStoreAndRead := by
  refine fun s v => ⟨fun hb => ?_, rfl, rfl, rfl, rfl⟩
  have hwrite : ∀ stored : State, (s.unlessBusy stored).reply { status := .ok, data := 0 } =
      stored.reply { status := .ok, data := 0 } := fun stored => by rw [State.unlessBusy_idle hb]
  exact ⟨hwrite _, hwrite _, hwrite _, hwrite _⟩

/-! ### FIELD halves -/

theorem legalAccess_fieldLo (j : Fin 16) : LegalAccess (BitVec.ofNat 12 (0x080 + 8 * j.val)).toNat .word := by
  rw [fieldLo_toNat]; exact legalAccess_field (by omega) (by omega) (by omega)

theorem legalAccess_fieldHi (j : Fin 16) : LegalAccess (BitVec.ofNat 12 (0x084 + 8 * j.val)).toNat .word := by
  rw [fieldHi_toNat]; exact legalAccess_field (by omega) (by omega) (by omega)

theorem memWrite_fieldLo {s : State} (hb : s.status.busy = false) (j : Fin 16) (v : Word32) :
    s.memWrite (BitVec.ofNat 12 (0x080 + 8 * j.val)) .word v =
      (s.setFieldLo j v).reply { status := .ok, data := 0 } := by
  rw [memWrite_of_legal (legalAccess_fieldLo j)]
  simp only [State.writePlace, placeAt_fieldLo, State.unlessBusy_idle hb]

theorem memWrite_fieldHi {s : State} (hb : s.status.busy = false) (j : Fin 16) (v : Word32) :
    s.memWrite (BitVec.ofNat 12 (0x084 + 8 * j.val)) .word v =
      (s.setFieldHi j v).reply { status := .ok, data := 0 } := by
  rw [memWrite_of_legal (legalAccess_fieldHi j)]
  simp only [State.writePlace, placeAt_fieldHi, State.unlessBusy_idle hb]

theorem readResponse_of_data {s : State} {off : BitVec 12} {w : AccessWidth} {d : Word32} (hl : LegalAccess off.toNat w)
    (hd : (s.readResponse off w).data = d) : s.readResponse off w = { status := .ok, data := d } := by
  rw [readResponse_of_legal hl] at hd ⊢
  exact congrArg (BusResponse.mk .ok) hd

/-- On an idle block a FIELD half that holds a value reads as it. -/
theorem readResponse_fieldLo_value {s : State} {j : Fin 16} {r : FieldReg} {v : Word32}
    (hb : s.status.busy = false) (hf : s.fields[j] = r) (hv : r.lo = .value v) :
    s.readResponse (BitVec.ofNat 12 (0x080 + 8 * j.val)) .word = { status := .ok, data := v } := by
  refine readResponse_of_data (legalAccess_fieldLo j) ?_
  rw [readResponse_fieldLo, readUnlessHidden_of_not_hidden (State.not_hidden_idle hb _), hf, hv, Content.read]

theorem readResponse_fieldHi_value {s : State} {j : Fin 16} {r : FieldReg} {v : Word32}
    (hb : s.status.busy = false) (hf : s.fields[j] = r) (hv : r.hi = .value v) :
    s.readResponse (BitVec.ofNat 12 (0x084 + 8 * j.val)) .word = { status := .ok, data := v } := by
  refine readResponse_of_data (legalAccess_fieldHi j) ?_
  rw [readResponse_fieldHi, readUnlessHidden_of_not_hidden (State.not_hidden_idle hb _), hf, hv, Content.read]

/-- Settles O56: a write of a half is `setFieldLo` or `setFieldHi`, which set one entry of the vector. -/
theorem fieldHalvesAreSeparate : Obligations.FieldHalvesAreSeparate := by
  intro s j v hb
  have hself : ∀ r : FieldReg, (s.fields.set j r)[j] = r := fun r => Vector.getElem_set_self _
  have hother : ∀ (r : FieldReg) (k : Fin 16), k ≠ j → (s.fields.set j r)[k] = s.fields[k] := fun r k hk =>
    Vector.getElem_set_ne _ _ fun h => hk (Fin.ext h.symm)
  exact ⟨⟨_, memWrite_fieldLo hb j v, hself _, hother _, rfl, readResponse_fieldLo_value hb (hself _) rfl⟩,
    ⟨_, memWrite_fieldHi hb j v, hself _, hother _, rfl, readResponse_fieldHi_value hb (hself _) rfl⟩⟩

end Sys2Proof.Machine
end

section
/-! ## Steps, bus accesses and SETIN (R60 to R73, R92, R98, R259) -/

namespace Sys2Proof.Machine

/-- Settles O9, agent by agent: an access and reset answer a state, and so does the engine's turn, since every command
is the completion of its body. -/
theorem nothingStopsTheBlock : Obligations.NothingStopsTheBlock := by
  refine ⟨fun s => ?_, fun i s => ⟨_, exec_eq_complete i s⟩⟩
  rcases step_cases s with ⟨_, _, -, hs⟩ | ⟨rest, -, hs⟩ | ⟨_, -, hs⟩
  · exact ⟨_, hs⟩
  · obtain ⟨t, ht, -⟩ := engineTurn_makes_idle (s.setAgenda rest)
    exact ⟨t, hs.trans ht⟩
  · exact ⟨_, hs⟩

/-! ### Accesses that get OK or ERROR -/

theorem memWrite_of_not_legal {s : State} {off : BitVec 12} {w : AccessWidth} {v : Word32}
    (h : ¬LegalAccess off.toNat w) : s.memWrite off w v = s.reply { status := .error, data := 0 } :=
  if_neg (mt (accessAllowed_iff off w).1 h)

theorem memRead_of_legal {s : State} {off : BitVec 12} {w : AccessWidth} (h : LegalAccess off.toNat w) :
    s.memRead off w = s.countDraw.reply (s.readResponse off w) :=
  if_pos ((accessAllowed_iff off w).2 h)

theorem memRead_of_not_legal {s : State} {off : BitVec 12} {w : AccessWidth} (h : ¬LegalAccess off.toNat w) :
    s.memRead off w = s.reply { status := .error, data := 0 } := by
  have hno := mt (accessAllowed_iff off w).1 h
  rw [State.memRead, if_neg hno, State.readResponse, if_neg hno]

/-- R69, R73: the host's record of responses is no state of the block, so no write touches it. -/
theorem State.writePlace_responses (s : State) (off n : Nat) (v : Word32) :
    (s.writePlace off n v).responses = s.responses := by
  rcases s.writePlace_cases off n v with h | h | ⟨-, h⟩ |
    ⟨-, h | h | h | h | h | ⟨i, h⟩ | ⟨i, h⟩ | ⟨-, h⟩⟩ <;> rw [h] <;> rfl

/-- R62, R63: an aligned access ends inside the buffer it begins in, as a buffer's ends are multiples of 4. -/
theorem legalAccess_inside_buffer {off : Nat} {w : AccessWidth} (h : LegalAccess off w) (_ : 0x100 ≤ off) :
    off + w.bytes ≤ 0x200 ∨ (0x200 ≤ off ∧ off + w.bytes ≤ 0x300) := by
  obtain ⟨halign, hplace⟩ := h
  cases w <;> simp only [AccessWidth.bytes] at halign ⊢ <;> omega

/-- Settles O52: the response and the effect of an access on each side of `LegalAccess`. -/
theorem busErrorsAndReadsChangeNothing : Obligations.BusErrorsAndReadsChangeNothing := by
  refine fun s off w v => ⟨fun h => ⟨?_, ?_⟩, fun h => ⟨memRead_of_not_legal h, memWrite_of_not_legal h⟩,
    legalAccess_inside_buffer, memRead_of_legal⟩
  · rw [readResponse_of_legal h]
  · rw [memWrite_of_legal h, State.reply_responses, State.writePlace_responses]

/-! ### SETIN (R98) -/

theorem run_add_of_next {M : Host.Core} {m : Nat} (k : Nat) {s u : M.State} (h : M.run m s = .next u) :
    M.run (m + k) s = M.run k u := by
  induction m generalizing s with
  | zero =>
    obtain rfl := Host.Outcome.next.inj h
    rw [Nat.zero_add]
  | succ m ih =>
    obtain ⟨s', hs, hrun⟩ := next_of_run_succ h
    rw [Nat.succ_add, run_succ_of_next hs, ih hrun]

theorem toNat_append_eq_add {n m : Nat} (x : BitVec n) (y : BitVec m) : (x ++ y).toNat = x.toNat * 2 ^ m + y.toNat := by
  rw [BitVec.toNat_append, ← Nat.shiftLeft_add_eq_or_of_lt y.isLt, Nat.shiftLeft_eq]

theorem wordOfBytes_eq_fromLe (b0 b1 b2 b3 : Byte) :
    wordOfBytes b0 b1 b2 b3 = BitVec.ofNat 32 (fromLe [b0, b1, b2, b3]) := by
  apply BitVec.eq_of_toNat_eq
  simp only [wordOfBytes, toNat_append_eq_add, fromLe, BitVec.toNat_ofNat]
  omega

/-- R66: a word store puts its four bytes in their order. -/
theorem leBytes_wordOfBytes (b0 b1 b2 b3 : Byte) : leBytes 4 (wordOfBytes b0 b1 b2 b3) = [b0, b1, b2, b3] := by
  rw [wordOfBytes_eq_fromLe]
  exact leBytes_fromLe 4 [b0, b1, b2, b3] rfl

theorem leBytes_one_setWidth (b : Byte) : leBytes 1 (b.setWidth 32) = [b] := by
  simp [leBytes, ← BitVec.setWidth_eq_extractLsb']

/-- R61, R66: one store of SETIN on an idle block: `bs` at `IN+j`. -/
theorem step_storeIn {s : State} {j : Nat} {w : AccessWidth} {v : Word32} {bs : Bytes} {es : List Event}
    (ha : s.agenda = .host (.write (BitVec.ofNat 12 (Config.inBase + j)) w v) :: es) (hb : s.status.busy = false)
    (hj : j < 256) (halign : j % w.bytes = 0) (hbs : leBytes w.bytes v = bs) :
    step s = .next (((s.setAgenda es).storeBytes (Config.inBase + j) bs).reply { status := .ok, data := 0 }) := by
  have hoff : (BitVec.ofNat 12 (Config.inBase + j)).toNat = 0x100 + j := by
    rw [BitVec.toNat_ofNat]
    exact Nat.mod_eq_of_lt (by simp only [Config.inBase]; omega)
  have hl : LegalAccess (BitVec.ofNat 12 (Config.inBase + j)).toNat w := by
    rw [hoff]
    refine ⟨?_, .inr ⟨by omega, by omega⟩⟩
    cases w <;> simp only [AccessWidth.bytes] at halign ⊢ <;> omega
  have hwrite := memWrite_in (s := s.setAgenda es) (v := v) hl (by omega) (by omega) hb
  rw [hoff, hbs] at hwrite
  exact (step_host ha).trans (congrArg Host.Outcome.next hwrite)

/-- R98: the stores of SETIN write their bytes to `IN[j..)`. A word store needs `j` aligned; the byte stores come last,
when fewer than four bytes are left. -/
theorem run_setInBytes (j : Nat) (bs : Bytes) {s : State} {rest : List Event} (hb : s.status.busy = false)
    (hfit : j + bs.length ≤ 256) (halign : bs.length < 4 ∨ j % 4 = 0) (ha : s.agenda = setInBytes j bs ++ rest) :
    ∃ rs, Host.Core.run Sys2Proof.core (setInBytes j bs).length s =
      .next { s with mem := s.mem.writeBytes (Config.inBase + j) bs, agenda := rest, responses := rs } := by
  induction j, bs using setInBytes.induct generalizing s with
  | case1 j b0 b1 b2 b3 bs ih =>
    simp only [List.length_cons] at hfit halign
    have hstep := step_storeIn ha hb (by omega) (by show j % 4 = 0; omega) (leBytes_wordOfBytes b0 b1 b2 b3)
    exact Exists.imp (fun _ => (run_step hstep).trans) (ih hb (by omega) (by omega) rfl)
  | case2 j b bs hshort ih =>
    have hlast : bs.length < 3 := by
      match bs, hshort with
      | [], _ | [_], _ | [_, _], _ => simp
      | b1 :: b2 :: b3 :: bs, hshort => exact (hshort b1 b2 b3 bs rfl).elim
    simp only [List.length_cons] at hfit
    rw [setInBytes.eq_2 j b bs hshort] at ha ⊢
    have hstep := step_storeIn ha hb (by omega) (Nat.mod_one j) (leBytes_one_setWidth b)
    exact Exists.imp (fun _ => (run_step hstep).trans) (ih hb (by omega) (.inl (by omega)) rfl)
  | case3 j =>
    obtain rfl : s.agenda = rest := ha
    exact ⟨s.responses, rfl⟩

/-- R31, R61: a write of IN_LEN on an idle block. -/
theorem step_writeInLen {s : State} {v : Word32} {es : List Event} (ha : s.agenda = w32 0x008 v :: es)
    (hb : s.status.busy = false) :
    step s = .next (((s.setAgenda es).setInLen (v.setWidth 9)).reply { status := .ok, data := 0 }) := by
  obtain ⟨hwrite, -⟩ := (operandRegistersStoreAndRead (s.setAgenda es) v).1 hb
  exact (step_host ha).trans (congrArg Host.Outcome.next hwrite)

/-- R31: the number of bytes that SETIN writes fits in IN_LEN. -/
theorem toNat_setWidth_inLen {k : Nat} (h : k ≤ 256) : ((BitVec.ofNat 32 k).setWidth 9).toNat = k := by
  rw [BitVec.toNat_setWidth, BitVec.toNat_ofNat]
  omega

/-- Settles O60: the stores fill IN, and the last access writes IN_LEN. -/
theorem setInFillsInputBuffer : Obligations.SetInFillsInputBuffer := by
  intro bs s rest hlen hb ha
  rw [setIn, List.append_assoc] at ha
  rw [setIn, List.length_append]
  obtain ⟨rs, hstores⟩ := run_setInBytes 0 bs hb (by omega) (.inr rfl) ha
  have hrun := (run_add_of_next 1 hstores).trans (run_one (step_writeInLen rfl hb))
  exact ⟨_, hrun, ⟨toNat_setWidth_inLen hlen, Memory.read?_writeBytes_inside s.mem 0x100 bs⟩,
    Memory.read?_writeBytes_outside s.mem 0x100 bs, rfl⟩

/-! ### Command words -/

/-- Settles O1: the low five bits of each word, looked up in the opcode map. -/
theorem decodesWrittenCommandWords : Obligations.DecodesWrittenCommandWords :=
  ⟨rfl, rfl, rfl, rfl, rfl, rfl, rfl, rfl⟩

end Sys2Proof.Machine
end

section
/-! ## Decoding and encoding (R90, R92, R93, R99) -/

namespace Sys2Proof.Machine

theorem bytesOfWord_eq_leBytes (w : Word32) : bytesOfWord w = leBytes 4 w := rfl

/-- R66: the four bytes of a word, read as a word again. -/
theorem wordOfBytes_bytesOfWord (w : Word32) :
    wordOfBytes (w.extractLsb' 0 8) (w.extractLsb' 8 8) (w.extractLsb' 16 8) (w.extractLsb' 24 8) = w := by
  have hbytes : fromLe (bytesOfWord w) = w.toNat := by rw [bytesOfWord_eq_leBytes, fromLe_leBytes 4 w]
  rw [wordOfBytes_eq_fromLe]
  exact (congrArg (BitVec.ofNat 32) hbytes).trans ((BitVec.ofNat_toNat 32 w).trans (BitVec.setWidth_eq w))

/-- R90, R99: the bytes of a word decode as the word does, and the bytes after them are left. -/
theorem decodeBytes_of_word {w : Word32} {i : Instr} (h : decodeWord w = .ok i) (rest : Bytes) :
    decodeBytes (bytesOfWord w ++ rest) = .ok (i, rest) := by
  simp only [bytesOfWord, List.cons_append, List.nil_append, decodeBytes, wordOfBytes_bytesOfWord, h]

/-- R90: the OP field of a command's word is its opcode. -/
theorem opField_encodeWord (i : Instr) : opField (encodeWord i) = i.opcode := by
  rw [opField, encodeWord, ← BitVec.setWidth_eq_extractLsb' (by decide), BitVec.setWidth_setWidth_of_le _ (by decide),
    BitVec.setWidth_eq]

/-- R92: from an operation to its opcode and back. -/
theorem decodeOp_opcode (i : Instr) : decodeOp i.opcode = .ok i := by cases i <;> rfl

/-- R92, R93: from an opcode that is not reserved to its operation and back. -/
theorem opcode_decodeOp {op : BitVec 5} (h : op ∉ reservedOpcodes) : (decodeOp op).map Instr.opcode = .ok op := by
  revert op
  decide

/-- R93: the reserved opcodes are all that is rejected. -/
theorem decodeOp_eq_error_iff {op : BitVec 5} :
    decodeOp op = .error (.reservedOpcode op) ↔ op ∈ reservedOpcodes := by
  refine ⟨fun h => ?_, decodeOp_of_reserved⟩
  by_contra hassigned
  have hop := opcode_decodeOp hassigned
  rw [h] at hop
  cases hop

/-- R92: an opcode decodes to the one command it is the opcode of. -/
theorem decodeOp_eq_ok_iff {op : BitVec 5} {i : Instr} : decodeOp op = .ok i ↔ op = i.opcode := by
  refine ⟨fun h => ?_, fun h => h ▸ decodeOp_opcode i⟩
  have hassigned : op ∉ reservedOpcodes := fun hr => by cases (decodeOp_of_reserved hr).symm.trans h
  have hop := opcode_decodeOp hassigned
  rw [h] at hop
  exact (Except.ok.inj hop).symm

/-- Settles O2: a word's bytes give the word back, its OP field is the opcode, and the two opcode maps are inverse. -/
theorem decodeAndEncodeAgree : Obligations.DecodeAndEncodeAgree :=
  ⟨fun i rest _ => decodeBytes_of_word (decodeOp_eq_ok_iff.2 (opField_encodeWord i)) rest,
    fun _ _ => decodeOp_eq_ok_iff, fun _ => decodeOp_eq_error_iff⟩

end Sys2Proof.Machine
end

section
/-! ## Acceptance, and the completion of a reserved opcode (R91, R93, R256, R286) -/

namespace Sys2Proof.Machine

/-- R91, R285: a CMD write, before its bus response. -/
theorem memWrite_cmd (s : State) (w : Word32) :
    s.memWrite 0x000 .word w = (s.unlessBusy (s.accept w)).reply { status := .ok, data := 0 } := rfl

theorem step_writeCmd_idle {s : State} {w : Word32} {rest : List Event}
    (ha : s.agenda = .host (.write 0x000 .word w) :: rest) (hb : s.status.busy = false) :
    step s = .next (((s.setAgenda rest).accept w).reply { status := .ok, data := 0 }) := by
  rw [step_host ha, State.access, memWrite_cmd, State.unlessBusy_idle (by exact hb)]

theorem step_writeCmd_busy {s : State} {w : Word32} {rest : List Event}
    (ha : s.agenda = .host (.write 0x000 .word w) :: rest) (hb : s.status.busy = true) :
    step s = .next ((s.setAgenda rest).dropWrite.reply { status := .ok, data := 0 }) := by
  rw [step_host ha, State.access, memWrite_cmd, State.unlessBusy_busy (by exact hb)]

/-- R93, R256: the completion of a reserved opcode forgets no output but OUT_LEN. -/
theorem completeReserved_eq (s : State) :
    completeReserved s = .next { s with
      status := { busy := false, done := true, bool := false, haz := s.status.haz, err := 14 }
      outLen := 0
      draws := s.draws + 1 } := by
  have hforget : s.forgetOutputs reservedOutputSet = { s with outLen := 0 } := by
    simp [State.forgetOutputs, reservedOutputSet]
  rw [completeReserved, State.complete_error, hforget]
  rfl

theorem engineStep_of_reserved {s : State} (hr : s.latchedOp ∈ reservedOpcodes) :
    engineStep s = completeReserved s := by
  simp only [engineStep, decodeOp_of_reserved hr]

/-- Settles O4: the write is accepted or dropped by BUSY, and an accepted reserved opcode is the latched one. -/
theorem cmdWriteAcceptsCommand : Obligations.CmdWriteAcceptsCommand := by
  refine fun s w rest ha => ⟨step_writeCmd_idle ha, step_writeCmd_busy ha, fun hb hr t ht => ?_⟩
  obtain rfl := Host.Outcome.next.inj ((step_writeCmd_idle ha hb).symm.trans ht)
  exact ⟨_, (engineStep_of_reserved hr).trans (completeReserved_eq _), rfl, rfl, rfl⟩

/-- Settles O5: both ways the engine gets its turn end in `completeReserved_eq`. -/
theorem reservedOpcodeCompletesIllegalOp : Obligations.ReservedOpcodeCompletesIllegalOp := by
  rintro s rest hb hr (ha | ⟨ha, rfl⟩)
  · rw [step_engine ha, engineTurn_of_reserved (s := s.setAgenda rest) hb hr, completeReserved_eq]
    rfl
  · rw [step_nil ha, engineTurn_of_reserved hb hr, completeReserved_eq, ← ha]

end Sys2Proof.Machine
end

section
/-! ## Results depend on operands alone (R94, R259, R290) -/

namespace Sys2Proof.Machine

/-! ### Operands -/

theorem SameOperands.byteAt_eq {s s' : State} (h : SameOperands s s') {a : Nat} (h1 : 0x100 ≤ a) (h2 : a < 0x200) :
    s.byteAt a = s'.byteAt a := by
  rw [State.byteAt, State.byteAt, h.input a h1 h2, h.draws]

/-- R94: the same input, where IN_LEN is no longer than IN. -/
theorem SameOperands.input_eq {s s' : State} (h : SameOperands s s') (hlen : s.inLen.toNat ≤ 256) :
    s.input = s'.input := by
  rw [State.input, State.input, ← h.inLen]
  refine List.map_congr_left fun j hj => h.byteAt_eq (Nat.le_add_right _ _) ?_
  have hj := List.mem_range.1 hj
  simp only [Config.inBase]
  omega

/-- R255 (1): a command reads IN only after the length check, so bodies that agree on every input give one result. -/
theorem SameOperands.withInput_eq {s s' : State} (h : SameOperands s s') {cap : Nat} (hcap : cap ≤ 256)
    {body body' : Bytes → Except ErrorCode Effect} (hbody : ∀ d, body d = body' d) :
    s.withInput cap body = s'.withInput cap body' := by
  rcases Nat.lt_or_ge cap s.inLen.toNat with hlong | hshort
  · rw [State.withInput_gt hlong, State.withInput_gt (h.inLen ▸ hlong)]
  · rw [State.withInput_le hshort, State.withInput_le (h.inLen ▸ hshort), h.input_eq (hshort.trans hcap), hbody]

theorem SameOperands.selectedLayout_eq {s s' : State} (h : SameOperands s s') :
    s.selectedLayout = s'.selectedLayout := by
  simp only [State.selectedLayout, h.config, h.layout]

theorem SameOperands.fieldCount_eq {s s' : State} (h : SameOperands s s') : s.fieldCount = s'.fieldCount := by
  rw [State.fieldCount, State.fieldCount, h.selectedLayout_eq]

theorem SameOperands.fieldValues_eq {s s' : State} (h : SameOperands s s') : s.fieldValues = s'.fieldValues := by
  refine List.map_congr_left fun i _ => ?_
  rw [State.fieldValue, State.fieldValue, h.fields, h.draws]

/-- R234: TX_FRAME has no length check of its own; an input too long fails whatever its bytes are. -/
theorem SameOperands.txFrameBody_eq {s s' : State} (h : SameOperands s s') : txFrameBody s = txFrameBody s' := by
  have htx : txFrame s.msgId s.input = txFrame s'.msgId s'.input := by
    rcases Nat.lt_or_ge 246 s.inLen.toNat with hlong | hshort
    · rw [txFrame_of_long (by rwa [State.input_length]), txFrame_of_long (by rwa [State.input_length, ← h.inLen])]
    · rw [h.msgId, h.input_eq (by omega)]
  rw [txFrameBody, txFrameBody, htx]

/-- R259, R290: what a body gives is a function of the operands. -/
theorem SameOperands.commandBody_eq {s s' : State} (h : SameOperands s s') (i : Instr) :
    commandBody i s = commandBody i s' := by
  cases i <;> dsimp only [commandBody]
  case msgIsResponse => rw [msgIsResponseBody, msgIsResponseBody, h.msgId]
  case msgGetRequestId => rw [msgGetRequestIdBody, msgGetRequestIdBody, h.msgId]
  case msgClassify => rw [msgClassifyBody, msgClassifyBody, h.msgId]
  case structPack => rw [structPackBody, structPackBody, h.selectedLayout_eq, h.fieldValues_eq]
  case txFrame => exact h.txFrameBody_eq
  all_goals exact h.withInput_eq (by decide) fun d => by simp only [h.crcArg, h.msgId, h.config, h.selectedLayout_eq]

/-! ### A success writes the whole output set -/

/-- R94, R252: the effect writes every result register and FIELD register of the output set of the command `i`, by the
tables of the spec. For a given command and effect each clause is a look into the tables. -/
structure Effect.Fills (e : Effect) (i : Instr) (s : State) : Prop where
  crcRes : writesCrcRes i = true → e.crcRes.isSome = true := by simp [writesCrcRes]
  resId : writesResId i = true → e.resId.isSome = true := by simp [writesResId]
  resLen : writesResLen i = true → e.resLen.isSome = true := by simp [writesResLen]
  fields : ∀ j : Fin 16, WritesField i s j → j.val < e.fields.length := by simp [WritesField]

theorem commandBody_ok_fills {i : Instr} {s : State} {e : Effect} (h : commandBody i s = .ok e) : e.Fills i s := by
  cases i <;> dsimp only [commandBody] at h
  case crcCalc | crcUpdate | crcVerify | crcAppend =>
    obtain ⟨-, h⟩ := State.withInput_ok h
    obtain rfl := Except.ok.inj h
    exact {}
  case cobsEncode | cobsDecode | cobsFrame | cobsUnframe | msgPack =>
    obtain ⟨bs, -, -, rfl⟩ := State.withInput_bytesOut_ok h
    exact {}
  case crcCheckStrip =>
    obtain ⟨c, d, rfl, -⟩ := crcCheckStripBody_ok h
    exact {}
  case msgUnpack =>
    obtain ⟨m, rfl, -⟩ := msgUnpackBody_ok h
    exact {}
  case msgIsResponse | msgGetRequestId | msgClassify =>
    obtain rfl := Except.ok.inj h
    exact {}
  case structPack =>
    obtain ⟨bs, rfl, -⟩ := structPackBody_ok h
    exact {}
  case structUnpack =>
    obtain ⟨vs, rfl, hlen⟩ := structUnpackBody_ok h
    exact { fields := fun j ⟨_, hj⟩ => hj.trans_eq hlen.symm }
  case txFrame =>
    obtain ⟨c, f, rfl, -⟩ := txFrameBody_ok h
    exact {}
  case rxFrame =>
    obtain ⟨c, m, rfl, -⟩ := rxFrameBody_ok h
    exact {}

theorem Content.update_congr {w : Nat} (c c' : Content w) {v : Option (BitVec w)} (h : v.isSome = true) :
    c.update v = c'.update v := by
  obtain ⟨x, rfl⟩ := Option.isSome_iff_exists.1 h
  rfl

theorem writeFields_congr (fs fs' : Vector FieldReg 16) {vs : List Word64} {j : Fin 16} (h : j.val < vs.length) :
    (writeFields fs vs)[j] = (writeFields fs' vs)[j] := by
  rw [writeFields_get, writeFields_get, dif_pos h, dif_pos h]

theorem forgetFields_congr (fs fs' : Vector FieldReg 16) {k : Nat} {j : Fin 16} (h : j.val < k) :
    (forgetFields fs k)[j] = (forgetFields fs' k)[j] := by
  rw [forgetFields_get, forgetFields_get, if_pos h, if_pos h]

/-- Settles O14: the two bodies give one result; a success writes its effect over the whole output set, and an error
makes the whole output set unspecified. -/
theorem resultsDependOnOperandsAlone : Obligations.ResultsDependOnOperandsAlone := by
  intro i s s' t t' h ht ht'
  have hbody' := h.commandBody_eq i
  cases hbody : commandBody i s with
  | ok e =>
    obtain rfl := Host.Outcome.next.inj ((exec_of_ok hbody).symm.trans ht)
    obtain rfl := Host.Outcome.next.inj ((exec_of_ok (hbody'.symm.trans hbody)).symm.trans ht')
    have hfills := commandBody_ok_fills hbody
    refine ⟨rfl, rfl, rfl, fun hw => Content.update_congr _ _ (hfills.crcRes hw),
      fun hw => Content.update_congr _ _ (hfills.resId hw), fun hw => Content.update_congr _ _ (hfills.resLen hw),
      fun j hj => ?_, fun j hw => writeFields_congr _ _ (hfills.fields j hw)⟩
    have hj : j < e.out.length := hj.trans_eq (commandBody_ok_within hbody).outLen_toNat
    exact (Memory.read?_writeBytes_inside s.mem 0x200 e.out j hj).trans
      (Memory.read?_writeBytes_inside s'.mem 0x200 e.out j hj).symm
  | error c =>
    obtain rfl := Host.Outcome.next.inj ((exec_of_error hbody).symm.trans ht)
    obtain rfl := Host.Outcome.next.inj ((exec_of_error (hbody'.symm.trans hbody)).symm.trans ht')
    rw [← h.fieldCount_eq]
    refine ⟨rfl, rfl, rfl, fun hw => ?_, fun hw => ?_, fun hw => ?_, fun j hj => absurd hj (Nat.not_lt_zero j),
      fun j hw => ?_⟩
    · simp [outputSetOf_crcRes, hw]
    · simp [outputSetOf_resId, hw]
    · simp [outputSetOf_resLen, hw]
    · obtain ⟨rfl, hj⟩ := hw
      exact forgetFields_congr _ _ hj

end Sys2Proof.Machine
end

section
/-! ## The CRC over a sequence of bytes (R110, R115) -/

namespace Sys2Proof.Machine

@[simp] theorem crc16Update_nil (c : Word16) : crc16Update c [] = c := rfl

@[simp] theorem crc16Update_cons (c : Word16) (x : Byte) (d : Bytes) :
    crc16Update c (x :: d) = crc16Update (crcByte c x) d := rfl

theorem crc16Update_append (c : Word16) (a b : Bytes) : crc16Update c (a ++ b) = crc16Update (crc16Update c a) b :=
  List.foldl_append

/-- Settles O25: the loop over the bytes carries the register alone. -/
theorem crcIsIncremental : Obligations.CrcIsIncremental :=
  ⟨fun c a b => (crc16Update_append c a b).symm, fun a b => (crc16Update_append _ a b).symm, crc16Update_nil⟩

/-! ### The shift register (R110) -/

theorem msb_byte_shiftLeft (b : Byte) (k : Nat) : (b.setWidth 16 <<< (k + 8)).msb = b.getMsbD k := by
  rw [BitVec.msb_eq_getLsbD_last, BitVec.getLsbD_shiftLeft, BitVec.getLsbD_setWidth, BitVec.getMsbD_eq_getLsbD]
  by_cases hk : k < 8
  · simp [hk, show ¬ 15 < k + 8 by omega, show 15 - (k + 8) = 7 - k by omega, show 7 - k < 16 by omega]
  · simp [hk, show 15 < k + 8 by omega]

/-- R110: after `k` bits of a byte, one more bit of the division takes in the next most significant bit. -/
theorem crcBit_xor_byte (c : Word16) (b : Byte) (k : Nat) :
    crcBit (c ^^^ (b.setWidth 16 <<< (k + 8))) = crcShift c (b.getMsbD k) ^^^ (b.setWidth 16 <<< (k + 1 + 8)) := by
  rw [crcBit_xor, msb_byte_shiftLeft, ← BitVec.shiftLeft_add, Nat.add_right_comm]

/-- R110: the byte is added to the register at once, and its bits leave one at a time. -/
theorem crcByte_eq_foldl_crcShift (c : Word16) (b : Byte) : crcByte c b = (bitsMsbFirst b).foldl crcShift c := by
  have hgone : b.setWidth 16 <<< (8 + 8) = 0#16 := BitVec.shiftLeft_eq_zero (by decide)
  rw [crcByte, crcBit_xor_byte c b 0, crcBit_xor_byte _ b 1, crcBit_xor_byte _ b 2, crcBit_xor_byte _ b 3,
    crcBit_xor_byte _ b 4, crcBit_xor_byte _ b 5, crcBit_xor_byte _ b 6, crcBit_xor_byte _ b 7, hgone, BitVec.xor_zero]
  rfl

theorem crc16Update_eq_foldl_crcShift (c : Word16) (d : Bytes) :
    crc16Update c d = (d.flatMap bitsMsbFirst).foldl crcShift c := by
  induction d generalizing c with
  | nil => rfl
  | cons x d ih => rw [crc16Update_cons, ih, List.flatMap_cons, List.foldl_append, crcByte_eq_foldl_crcShift]

/-- R111: the check value, evaluated bit by bit. -/
theorem crc16Calculate_checkValue :
    crc16Calculate [0x31, 0x32, 0x33, 0x34, 0x35, 0x36, 0x37, 0x38, 0x39] = 0x29B1 := by
  simp [crc16Calculate, crcByte, crcBit, BitVec.msb_eq_getLsbD_last]

/-- Settles O26: byte by byte the division is the shift register. -/
theorem crcIsShiftRegisterOverBits : Obligations.CrcIsShiftRegisterOverBits :=
  ⟨crc16Update_eq_foldl_crcShift, crc16Calculate_checkValue⟩

/-! ### Injectivity (R116) -/

theorem crc16Update_injective_register (d : Bytes) {a b : Word16} (h : crc16Update a d = crc16Update b d) : a = b := by
  induction d generalizing a b with
  | nil => exact h
  | cons x d ih => exact crcByte_injective_register a b x (ih h)

/-- R116 (ii): with the other bytes fixed, the CRC tells any two values of one byte apart. -/
theorem eq_getElem_of_crc16Update_set {d : Bytes} {c : Word16} {k : Nat} {b : Byte} (hk : k < d.length)
    (h : crc16Update c (d.set k b) = crc16Update c d) : b = d[k] := by
  induction d generalizing c k with
  | nil => exact absurd hk (Nat.not_lt_zero k)
  | cons x d ih =>
    cases k with
    | zero => exact crcByte_injective_byte c b x (crc16Update_injective_register d h)
    | succ k => exact ih (Nat.lt_of_succ_lt_succ hk) h

theorem le16_injective {a b : Word16} (h : le16 a = le16 b) : a = b := by
  obtain ⟨hlo, htail⟩ := List.cons.inj h
  obtain ⟨hhi, -⟩ := List.cons.inj htail
  rw [← trailingCrc_le16 a, hlo, hhi, trailingCrc_le16]

theorem le16_trailingCrc (lo hi : Byte) : le16 (trailingCrc lo hi) = [lo, hi] := by
  obtain ⟨hlo, hhi⟩ := trailingCrc_bytes lo hi
  rw [le16, hlo, hhi]

/-! ### Check and strip (R114, R116) -/

/-- R114: the last two bytes are compared with the CRC of those before them. -/
theorem crc16CheckAndStrip_append_pair (d : Bytes) (lo hi : Byte) : crc16CheckAndStrip (d ++ [lo, hi]) =
    if crc16Calculate d = trailingCrc lo hi then .ok (d, crc16Calculate d) else .error .checksumMismatch := by
  simp [crc16CheckAndStrip]

theorem crc16CheckAndStrip_crc16Append (d : Bytes) :
    crc16CheckAndStrip (crc16Append d) = .ok (d, crc16Calculate d) := by
  rw [crc16Append, le16, crc16CheckAndStrip_append_pair, trailingCrc_le16, if_pos rfl]

/-- R114: what is accepted is data followed by its own CRC; a sequence of fewer than two bytes is none. -/
theorem crc16CheckAndStrip_of_not_append {u : Bytes} (h : ∀ d, u ≠ crc16Append d) :
    crc16CheckAndStrip u = .error .checksumMismatch := by
  unfold crc16CheckAndStrip
  split
  · next lo hi hdrop =>
    refine if_neg fun hcrc => h (u.take (u.length - 2)) ?_
    rw [crc16Append, hcrc, le16_trailingCrc, ← hdrop, List.take_append_drop]
  · rfl

/-- R116: a change in the data changes the CRC and not the trailing bytes; a change in the trailing bytes leaves the
data and its CRC. -/
theorem crc16Append_set_ne {d : Bytes} {k : Nat} {b : Byte} (hk : k < (crc16Append d).length)
    (hb : b ≠ (crc16Append d)[k]) (d' : Bytes) : (crc16Append d).set k b ≠ crc16Append d' := by
  intro heq
  have hlen : d.length = d'.length := by simpa using congrArg List.length heq
  simp only [crc16Append] at hk hb heq
  rcases Nat.lt_or_ge k d.length with hdata | htrail
  · rw [List.set_append_left _ _ hdata] at heq
    obtain ⟨rfl, hcrc⟩ := List.append_inj heq (by rwa [List.length_set])
    rw [List.getElem_append_left hdata] at hb
    exact hb (eq_getElem_of_crc16Update_set hdata (le16_injective hcrc).symm)
  · rw [List.set_append_right _ _ htrail] at heq
    obtain ⟨rfl, hcrc⟩ := List.append_inj heq hlen
    rw [List.getElem_append_right htrail] at hb
    have hj : k - d.length < ((le16 (crc16Calculate d)).set (k - d.length) b).length := by
      rw [List.length_append] at hk
      rw [List.length_set]
      omega
    exact hb ((List.getElem_set_self hj).symm.trans (List.getElem_of_eq hcrc hj))

/-- Settles O27: the changed sequence is no `crc16_append` of anything. -/
theorem crcDetectsEverySingleByteChange : Obligations.CrcDetectsEverySingleByteChange := fun d =>
  ⟨crc16CheckAndStrip_crc16Append d, fun _ _ hk hb => crc16CheckAndStrip_of_not_append (crc16Append_set_ne hk hb)⟩

end Sys2Proof.Machine
end

section
/-! ## The CRC commands (R118 to R122, R253, R254) -/

namespace Sys2Proof.Machine

/-! ### Completed commands -/

theorem ErrorCode.code_eq_errorNumber (c : ErrorCode) : c.code = errorNumber c := by cases c <;> rfl

/-- R250, R254: an error completes with its number and OUT_LEN 0. -/
theorem failedWith_of_error (s : State) (o : OutputSet) (c : ErrorCode) :
    FailedWith s ((s.forgetOutputs o).finish false c.code) c := by
  rw [c.code_eq_errorNumber]
  exact ⟨rfl, rfl⟩

/-- R32, R253: OUT holds the byte output of the body. -/
theorem outHolds_of_ok {i : Instr} {s : State} {e : Effect} (h : commandBody i s = .ok e) :
    OutHolds ((s.writeEffect e).finish e.bool 0) e.out :=
  ⟨(commandBody_ok_within h).outLen_toNat, Memory.read?_writeBytes_inside s.mem 0x200 e.out⟩

/-- R254: a failed command whose output set has CRC_RES. -/
theorem exec_error_crcRes {i : Instr} {s : State} {c : ErrorCode} (hi : writesCrcRes i = true)
    (h : commandBody i s = .error c) : ∃ t : State, exec i s = .next t ∧ FailedWith s t c ∧ t.crcRes = .unspecified :=
  ⟨_, exec_of_error h, failedWith_of_error s _ c, by simp [outputSetOf_crcRes, hi]⟩

theorem exec_oversize_crcRes {i : Instr} {s : State} {cap : Nat} (hi : writesCrcRes i = true)
    (hcap : inputCap i = some cap) (hlong : cap < s.inLen.toNat) :
    ∃ t : State, exec i s = .next t ∧ FailedWith s t .oversize ∧ t.crcRes = .unspecified :=
  exec_error_crcRes hi (commandBody_oversize hcap hlong)

/-! ### The bodies on an input within the bound -/

theorem commandBody_crcCalc {s : State} (h : s.inLen.toNat ≤ 256) :
    commandBody .crcCalc s = .ok { crcRes := some (crc16Calculate s.input) } := by
  rw [commandBody, crcCalcBody, State.withInput_le h]

theorem commandBody_crcUpdate {s : State} (h : s.inLen.toNat ≤ 256) :
    commandBody .crcUpdate s = .ok { crcRes := some (crc16Update s.crcArg s.input) } := by
  rw [commandBody, crcUpdateBody, State.withInput_le h]

theorem crc16Verify_eq_decide (d : Bytes) (e : Word16) : crc16Verify d e = decide (crc16Calculate d = e) := rfl

theorem commandBody_crcVerify {s : State} (h : s.inLen.toNat ≤ 256) : commandBody .crcVerify s =
    .ok { crcRes := some (crc16Calculate s.input), bool := decide (crc16Calculate s.input = s.crcArg) } := by
  rw [commandBody, crcVerifyBody, State.withInput_le h, crc16Verify_eq_decide]

theorem commandBody_crcAppend {s : State} (h : s.inLen.toNat ≤ 254) : commandBody .crcAppend s =
    .ok { crcRes := some (crc16Calculate s.input), out := crc16Append s.input } := by
  rw [commandBody, crcAppendBody, State.withInput_le (by exact h)]

theorem commandBody_crcCheckStrip_of_ok {s : State} {d : Bytes} {c : Word16} (h : s.inLen.toNat ≤ 256)
    (hstrip : crc16CheckAndStrip s.input = .ok (d, c)) :
    commandBody .crcCheckStrip s = .ok { crcRes := some c, out := d } := by
  rw [commandBody, crcCheckStripBody, State.withInput_le h, hstrip]

theorem commandBody_crcCheckStrip_of_error {s : State} {c : ErrorCode} (h : s.inLen.toNat ≤ 256)
    (hstrip : crc16CheckAndStrip s.input = .error c) : commandBody .crcCheckStrip s = .error c := by
  rw [commandBody, crcCheckStripBody, State.withInput_le h, hstrip]

/-! ### The statements -/

/-- Settles O21: the two bodies differ in the register they start from. -/
theorem crcCalcAndUpdateGiveCrcOfInput : Obligations.CrcCalcAndUpdateGiveCrcOfInput := fun _ =>
  ⟨fun hshort => ⟨⟨_, exec_of_ok (commandBody_crcCalc hshort), rfl, rfl, rfl⟩,
      ⟨_, exec_of_ok (commandBody_crcUpdate hshort), rfl, rfl, rfl, rfl⟩⟩,
    fun hlong => ⟨exec_oversize_crcRes rfl rfl hlong, exec_oversize_crcRes rfl rfl hlong⟩⟩

/-- Settles O22: BOOL is the comparison of the body. -/
theorem crcVerifyComparesWithArgument : Obligations.CrcVerifyComparesWithArgument := fun _ =>
  ⟨fun hshort => ⟨_, exec_of_ok (commandBody_crcVerify hshort), rfl, rfl, rfl⟩, exec_oversize_crcRes rfl rfl⟩

/-- Settles O23: the output of the body is `crc16_append` of the input. -/
theorem crcAppendPutsCrcLowByteFirst : Obligations.CrcAppendPutsCrcLowByteFirst := fun _ =>
  ⟨fun hshort =>
      have hbody := commandBody_crcAppend hshort
      ⟨_, exec_of_ok hbody, rfl, outHolds_of_ok hbody, rfl⟩,
    exec_oversize_crcRes rfl rfl⟩

/-- Settles O24: `crc16_check_and_strip` accepts `crc16_append` of anything, and nothing else. -/
theorem crcCheckStripAcceptsOnlyOwnCrc : Obligations.CrcCheckStripAcceptsOnlyOwnCrc := by
  refine fun s => ⟨fun d hshort hin => ?_, fun hshort hin => ?_, exec_oversize_crcRes rfl rfl⟩
  · have hbody := commandBody_crcCheckStrip_of_ok hshort (hin ▸ crc16CheckAndStrip_crc16Append d)
    exact ⟨_, exec_of_ok hbody, rfl, outHolds_of_ok hbody, rfl⟩
  · exact exec_error_crcRes rfl
      (commandBody_crcCheckStrip_of_error hshort (crc16CheckAndStrip_of_not_append hin))

end Sys2Proof.Machine
end

section
/-! ## The COBS codec (R140 to R147, R152) -/

namespace Sys2Proof.Machine

@[simp] theorem cobsBlock_length (d : Bytes) : (cobsBlock d).length = d.length + 1 := rfl

@[simp] theorem cobsBlocks_nil : cobsBlocks [] = [] := rfl

@[simp] theorem cobsBlocks_cons (d : Bytes) (ds : List Bytes) : cobsBlocks (d :: ds) = cobsBlock d ++ cobsBlocks ds :=
  List.flatMap_cons

/-- R140, R142: data bytes that the decoder takes for one block: at most 254, and zero-free under P_STRICT_ZERO. -/
def CobsData (strict : Bool) (d : Bytes) : Prop := d.length ≤ 254 ∧ (strict = true → (0x00 : Byte) ∉ d)

/-! ### What the walk does over blocks -/

/-- R142: the walk copies whole blocks, with the zeros they imply. -/
theorem cobsWalk_blocks {strict : Bool} {d : Bytes} {ds : List Bytes} (h : ∀ x ∈ d :: ds, CobsData strict x)
    (owed : Bool) : cobsWalk strict owed 0 (cobsBlocks (d :: ds)) =
      .ok ((if owed then [0x00] else []) ++ cobsJoin (d :: ds)) := by
  induction ds generalizing d owed with
  | nil =>
    obtain ⟨⟨hlen, hzero⟩, -⟩ := List.forall_mem_cons.1 h
    rw [cobsBlocks_cons, cobsWalk_block strict d hlen hzero]
    simp [cobsWalk, cobsJoin]
  | cons d' ds ih =>
    obtain ⟨⟨hlen, hzero⟩, htail⟩ := List.forall_mem_cons.1 h
    rw [cobsBlocks_cons, cobsWalk_block strict d hlen hzero, ih htail]
    simp [cobsJoin]

theorem cobsDecode_blocks {strict : Bool} {ds : List Bytes} (h : ∀ d ∈ ds, CobsData strict d) :
    cobsDecode strict (cobsBlocks ds) = .ok (cobsJoin ds) := by
  cases ds with
  | nil => rfl
  | cons d ds => exact cobsWalk_blocks h false

/-- R142: a walk that succeeds has copied the data bytes it needed and goes on at a code position. -/
theorem cobsWalk_ok_data {strict owed : Bool} {need : Nat} {e r : Bytes} (h : cobsWalk strict owed need e = .ok r) :
    ∃ d rest r', d.length = need ∧ (strict = true → (0x00 : Byte) ∉ d) ∧ e = d ++ rest ∧
      cobsWalk strict owed 0 rest = .ok r' := by
  induction need generalizing e r with
  | zero => exact ⟨[], e, r, rfl, fun _ => List.not_mem_nil, rfl, h⟩
  | succ need ih =>
    cases e with
    | nil => cases h
    | cons b e =>
      simp only [cobsWalk] at h
      split at h
      · cases h
      · next hb =>
        split at h
        · next hwalk =>
          obtain ⟨d, rest, r', rfl, hzero, rfl, hrest⟩ := ih hwalk
          refine ⟨b :: d, rest, r', rfl, fun hs hmem => ?_, rfl, hrest⟩
          rcases List.mem_cons.1 hmem with hb0 | hd0
          · exact hb ⟨hb0.symm, hs⟩
          · exact hzero hs hd0
        · cases h

/-- R140, R142: a walk that succeeds at a code position, before the end, is over one block. -/
theorem cobsWalk_ok_block {strict owed : Bool} {code : Byte} {e r : Bytes}
    (h : cobsWalk strict owed 0 (code :: e) = .ok r) :
    ∃ d rest owed' r', CobsData strict d ∧ code :: e = cobsBlock d ++ rest ∧ cobsWalk strict owed' 0 rest = .ok r' := by
  simp only [cobsWalk] at h
  split at h
  · cases h
  · next hcode =>
    split at h
    · next hwalk =>
      obtain ⟨d, rest, r', hlen, hzero, rfl, hrest⟩ := cobsWalk_ok_data hwalk
      have hpos : code.toNat ≠ 0 := fun h0 => hcode (BitVec.eq_of_toNat_eq h0)
      have hlt := code.isLt
      have hsucc : d.length + 1 = code.toNat := by omega
      refine ⟨d, rest, _, r', ⟨by omega, hzero⟩, ?_, hrest⟩
      rw [cobsBlock, hsucc, BitVec.ofNat_toNat, BitVec.setWidth_eq, List.cons_append]
    · cases h

/-- R140: what a walk from a code position accepts is a run of blocks. -/
theorem cobsWalk_ok_blocks {strict owed : Bool} {e r : Bytes} (h : cobsWalk strict owed 0 e = .ok r) :
    ∃ ds : List Bytes, (∀ d ∈ ds, CobsData strict d) ∧ e = cobsBlocks ds := by
  induction hn : e.length using Nat.strong_induction_on generalizing e owed r with
  | _ n ih =>
    cases e with
    | nil => exact ⟨[], List.forall_mem_nil _, rfl⟩
    | cons code e =>
      obtain ⟨d, rest, owed', r', hd, he, hrest⟩ := cobsWalk_ok_block h
      have hshorter : rest.length < n := by
        rw [← hn, he, List.length_append, cobsBlock_length]
        omega
      obtain ⟨ds, hds, rfl⟩ := ih _ hshorter hrest rfl
      exact ⟨d :: ds, List.forall_mem_cons.2 ⟨hd, hds⟩, he⟩

/-- Settles O32: what the decoder accepts is a run of blocks, and it decodes a run of blocks to their join. -/
theorem cobsDecodeJoinsBlocks : Obligations.CobsDecodeJoinsBlocks := by
  refine fun strict e r => ⟨fun h => ?_, ?_⟩
  · obtain ⟨ds, hds, rfl⟩ := cobsWalk_ok_blocks h
    exact ⟨ds, hds, rfl, Except.ok.inj (h.symm.trans (cobsDecode_blocks hds))⟩
  · rintro ⟨ds, hds, rfl, rfl⟩
    exact cobsDecode_blocks hds

/-- Settles O36: the bound on the walk, at a code position with no zero owed. -/
theorem cobsDecodedLengthIsSmaller : Obligations.CobsDecodedLengthIsSmaller := by
  refine fun strict e r h => ⟨?_, fun hne => ?_⟩
  · rintro rfl
    exact (Except.ok.inj h).symm
  · have hlen := cobsWalk_length strict e false 0 r h
    rw [if_neg Bool.false_ne_true, if_pos ⟨rfl, hne⟩] at hlen
    omega

/-! ### The first fault -/

/-- R142: whole blocks are passed over, whatever error comes after them. -/
theorem cobsDecode_blocks_append_error {strict : Bool} {ds : List Bytes} {rest : Bytes} {c : ErrorCode}
    (hds : ∀ d ∈ ds, CobsData strict d) (h : ∀ owed, cobsWalk strict owed 0 rest = .error c) :
    cobsDecode strict (cobsBlocks ds ++ rest) = .error c := by
  have hwalk : ∀ owed, cobsWalk strict owed 0 (cobsBlocks ds ++ rest) = .error c := by
    induction ds with
    | nil => exact h
    | cons d ds ih =>
      obtain ⟨⟨hlen, hzero⟩, htail⟩ := List.forall_mem_cons.1 hds
      intro owed
      rw [cobsBlocks_cons, List.append_assoc, cobsWalk_block strict d hlen hzero, ih htail]
  exact hwalk false

/-- R142: inside a block that is not yet whole, the error is the one met at the next data position. -/
theorem cobsWalk_open_block_error {strict : Bool} {code : Byte} {data rest : Bytes} {c : ErrorCode}
    (hlt : data.length + 1 < code.toNat) (hzero : strict = true → (0x00 : Byte) ∉ data)
    (h : ∀ owed m, cobsWalk strict owed (m + 1) rest = .error c) (owed : Bool) :
    cobsWalk strict owed 0 (code :: (data ++ rest)) = .error c := by
  have hcode : code ≠ 0x00 := by
    rintro rfl
    exact Nat.not_lt_zero _ hlt
  obtain ⟨m, hm⟩ : ∃ m, code.toNat - 1 = data.length + (m + 1) := ⟨code.toNat - data.length - 2, by omega⟩
  rw [cobsWalk, if_neg hcode, hm, cobsWalk_data strict data hzero, h]

/-- Settles O33: the walk passes the whole blocks, and the data of the open block, up to each fault. -/
theorem cobsDecodeReportsFirstFault : Obligations.CobsDecodeReportsFirstFault := by
  refine fun strict ds hds => ⟨fun rest => ?_, fun code data hlt hzero => ?_, fun code data rest hs hlt hzero => ?_⟩
  · exact cobsDecode_blocks_append_error hds fun _ => if_pos rfl
  · have hopen := cobsWalk_open_block_error (rest := []) hlt hzero fun _ _ => rfl
    rw [List.append_nil] at hopen
    exact cobsDecode_blocks_append_error hds hopen
  · exact cobsDecode_blocks_append_error hds
      (cobsWalk_open_block_error hlt (fun _ => hzero) fun _ _ => if_pos ⟨rfl, hs⟩)

/-! ### The encoder -/

theorem cobsBlock_length_le {d : Bytes} {ds : List Bytes} (h : d ∈ ds) : d.length + 1 ≤ (cobsBlocks ds).length := by
  have hsub : (cobsBlock d).Sublist (cobsBlocks ds) := List.sublist_flatten_of_mem (List.mem_map_of_mem h)
  exact hsub.length_le

theorem zero_not_mem_cobsBlocks {ds : List Bytes} (h : ∀ d ∈ ds, d.length ≤ 254 ∧ (0x00 : Byte) ∉ d) :
    (0x00 : Byte) ∉ cobsBlocks ds := by
  intro hmem
  obtain ⟨d, hd, hd0⟩ := List.mem_flatMap.1 hmem
  obtain ⟨hlen, hzero⟩ := h d hd
  rcases List.mem_cons.1 hd0 with hcode | hdata
  · have hnat := congrArg BitVec.toNat hcode
    rw [cobsBlock_code d hlen] at hnat
    cases hnat
  · exact hzero hdata

/-- R141: patching the last code byte closes the last block. -/
theorem cobsPatch_blocks (ds : List Bytes) (cur : Bytes) :
    cobsPatch { out := cobsBlocks ds ++ 0 :: cur, ci := (cobsBlocks ds).length, code := cur.length + 1 } =
      cobsBlocks (ds ++ [cur]) := by
  simp [cobsPatch, cobsBlocks, cobsBlock]

/-- R141, R143: the encoder's invariant at the end of the input; no block can be longer than the whole encoding. -/
theorem cobsEncode_eq_blocks {x : Bytes} (h : x.length ≤ 250) :
    ∃ ds : List Bytes, ds ≠ [] ∧ cobsEncode x = .ok (cobsBlocks ds) ∧
      (∀ d ∈ ds, d.length ≤ 250 ∧ (0x00 : Byte) ∉ d) ∧ x = List.intercalate [0x00] ds := by
  obtain ⟨ds, cur, hrun, hds, hcur, hx⟩ :=
    cobsPut_invariant x [] [] (List.forall_mem_nil _) List.not_mem_nil (by simpa using h)
  have henc : cobsEncode x = .ok (cobsBlocks (ds ++ [cur])) := by
    rw [← cobsPatch_blocks, ← hrun]
    exact if_neg (Nat.not_lt.mpr h)
  have hzero : ∀ d ∈ ds ++ [cur], (0x00 : Byte) ∉ d :=
    List.forall_mem_append.2 ⟨hds, List.forall_mem_singleton.2 hcur⟩
  obtain ⟨-, hlen⟩ := cobsEncode_ok_length henc
  refine ⟨ds ++ [cur], by simp, henc, fun d hd => ⟨?_, hzero d hd⟩, hx.symm⟩
  have := cobsBlock_length_le hd
  omega

/-- Settles O34: the blocks of `cobsEncode_eq_blocks`, with the length law and their code bytes. -/
theorem cobsEncodeIsZeroFreeBlocks : Obligations.CobsEncodeIsZeroFreeBlocks := by
  refine fun x => ⟨fun h => ?_, cobsEncode_of_long⟩
  obtain ⟨ds, hne, henc, hdata, hx⟩ := cobsEncode_eq_blocks h
  obtain ⟨-, hlen⟩ := cobsEncode_ok_length henc
  exact ⟨ds, hne, henc, hdata, hx, hlen,
    zero_not_mem_cobsBlocks fun d hd => (hdata d hd).imp_left fun h250 => h250.trans (by decide)⟩

/-! ### Decoding undoes encoding -/

theorem cobsJoin_eq_intercalate {ds : List Bytes} (h : ∀ d ∈ ds, d.length < 254) :
    cobsJoin ds = List.intercalate [0x00] ds := by
  induction ds with
  | nil => rfl
  | cons d ds ih =>
    obtain ⟨hd, htail⟩ := List.forall_mem_cons.1 h
    cases ds with
    | nil => simp [cobsJoin, List.intercalate]
    | cons d' ds =>
      rw [cobsJoin, if_pos hd, ih htail]
      simp [List.intercalate]

theorem cobsFrame_of_ok {d r : Bytes} (h : cobsEncode d = .ok r) : cobsFrame d = .ok (r ++ [0x00]) := by
  rw [cobsFrame, h]

theorem cobsUnframe_append_delim (strict : Bool) (e : Bytes) :
    cobsUnframe strict (e ++ [0x00]) = cobsDecode strict e := by
  rw [cobsUnframe, if_pos List.getLast?_concat, List.dropLast_concat]

theorem cobsUnframe_of_no_delim {f : Bytes} (h : ∀ e, f ≠ e ++ [0x00]) (strict : Bool) :
    cobsUnframe strict f = .error .missingDelimiter :=
  if_neg fun hlast => (List.getLast?_eq_some_iff.1 hlast).elim h

/-- R145: the blocks of an encoding are shorter than 254, so each zero of the input is one implied zero. -/
theorem cobsDecode_cobsEncode {x r : Bytes} (h : cobsEncode x = .ok r) (strict : Bool) :
    cobsDecode strict r = .ok x := by
  obtain ⟨hx, -⟩ := cobsEncode_ok_length h
  obtain ⟨ds, -, henc, hdata, hjoin⟩ := cobsEncode_eq_blocks hx
  obtain rfl := Except.ok.inj (henc.symm.trans h)
  have hblocks : ∀ d ∈ ds, CobsData strict d := fun d hd =>
    (hdata d hd).imp (fun h250 => h250.trans (by decide)) fun hzero _ => hzero
  have hshort : ∀ d ∈ ds, d.length < 254 := fun d hd => Nat.lt_of_le_of_lt (hdata d hd).1 (by decide)
  rw [cobsDecode_blocks hblocks, cobsJoin_eq_intercalate hshort, ← hjoin]

/-- Settles O35: `cobs_unframe` of a frame is `cobs_decode` of the encoding in it. -/
theorem cobsRoundTrip : Obligations.CobsRoundTrip := by
  intro strict x hx
  obtain ⟨ds, -, henc, -⟩ := cobsEncode_eq_blocks hx
  have hdec := cobsDecode_cobsEncode henc strict
  exact ⟨_, _, henc, hdec, cobsFrame_of_ok henc, (cobsUnframe_append_delim strict _).trans hdec⟩

end Sys2Proof.Machine
end

section
/-! ## The COBS commands (R148 to R151, R253, R254) -/

namespace Sys2Proof.Machine

theorem exec_failedWith {i : Instr} {s : State} {c : ErrorCode} (h : commandBody i s = .error c) :
    ∃ t : State, exec i s = .next t ∧ FailedWith s t c :=
  ⟨_, exec_of_error h, failedWith_of_error s _ c⟩

theorem exec_oversize {i : Instr} {s : State} {cap : Nat} (hcap : inputCap i = some cap)
    (hlong : cap < s.inLen.toNat) : ∃ t : State, exec i s = .next t ∧ FailedWith s t .oversize :=
  exec_failedWith (commandBody_oversize hcap hlong)

section
/-! A command that runs one codec function `f` on its input, of at most `cap` bytes, and whose only result is the
byte output. -/

variable {i : Instr} {s : State} {cap : Nat} {f : Bytes → Except ErrorCode Bytes}
  (hbody : commandBody i s = s.withInput cap fun d => bytesOut (f d)) (hshort : s.inLen.toNat ≤ cap)
include hbody hshort

theorem exec_bytesOut_ok {r : Bytes} (h : f s.input = .ok r) :
    ∃ t : State, exec i s = .next t ∧ Succeeded s t false ∧ OutHolds t r := by
  have hok : commandBody i s = .ok { out := r } := by rw [hbody, State.withInput_le hshort, h, bytesOut]
  exact ⟨_, exec_of_ok hok, rfl, outHolds_of_ok hok⟩

theorem exec_bytesOut_error {c : ErrorCode} (h : f s.input = .error c) :
    ∃ t : State, exec i s = .next t ∧ FailedWith s t c :=
  exec_failedWith (by rw [hbody, State.withInput_le hshort, h, bytesOut])

end

/-- Settles O28: at most 250 bytes always have an encoding. -/
theorem cobsEncodeCommandGivesEncoding : Obligations.CobsEncodeCommandGivesEncoding := by
  refine fun s => ⟨fun hshort => ?_, exec_oversize rfl⟩
  obtain ⟨ds, -, henc, -⟩ := cobsEncode_eq_blocks (s.input_length.trans_le hshort)
  obtain ⟨t, ht, hst, hout⟩ := exec_bytesOut_ok (i := .cobsEncode) rfl hshort henc
  exact ⟨t, _, ht, hst, henc, hout, s.input_length ▸ (cobsEncode_ok_length henc).2⟩

/-- Settles O29: the command's result is the decoder's. -/
theorem cobsDecodeCommandGivesDecoding : Obligations.CobsDecodeCommandGivesDecoding := fun _ =>
  ⟨fun _ hshort hdec => exec_bytesOut_ok (i := .cobsDecode) rfl hshort hdec,
    fun _ hshort hdec => exec_bytesOut_error (i := .cobsDecode) rfl hshort hdec, exec_oversize rfl⟩

/-- Settles O30: the frame is the encoding and the delimiter. -/
theorem cobsFrameCommandAppendsDelimiter : Obligations.CobsFrameCommandAppendsDelimiter := by
  refine fun s => ⟨fun hshort => ?_, exec_oversize rfl⟩
  obtain ⟨ds, -, henc, -⟩ := cobsEncode_eq_blocks (s.input_length.trans_le hshort)
  have hframe := cobsFrame_of_ok henc
  obtain ⟨t, ht, hst, hout⟩ := exec_bytesOut_ok (i := .cobsFrame) rfl hshort hframe
  exact ⟨t, _, ht, hst, henc, hout, s.input_length ▸ hout.1.trans (cobsFrame_ok_length hframe).2⟩

/-- Settles O31: the command's result is that of `cobs_unframe`, which decodes what stands before a final 0x00. -/
theorem cobsUnframeCommandNeedsDelimiter : Obligations.CobsUnframeCommandNeedsDelimiter := by
  refine fun s => ⟨fun e r hshort hin hdec => ?_, fun e c hshort hin hdec => ?_, fun hshort hin => ?_,
    exec_oversize rfl, fun strict f => ⟨?_, fun h => cobsUnframe_of_no_delim h strict⟩⟩
  · exact exec_bytesOut_ok (i := .cobsUnframe) rfl hshort (hin ▸ (cobsUnframe_append_delim _ e).trans hdec)
  · exact exec_bytesOut_error (i := .cobsUnframe) rfl hshort (hin ▸ (cobsUnframe_append_delim _ e).trans hdec)
  · exact exec_bytesOut_error (i := .cobsUnframe) rfl hshort (cobsUnframe_of_no_delim hin _)
  · rintro e rfl
    exact cobsUnframe_append_delim strict e

end Sys2Proof.Machine
end

section
/-! ## The message layer (R170 to R176) -/

namespace Sys2Proof.Machine

/-! ### Unpacking (R171, R175) -/

theorem msgUnpack_of_short {reject : Bool} {b : Bytes} (h : b.length < 2) :
    msgUnpack reject b = .error .msgTooShort := by
  match b with
  | [] | [_] => rfl
  | _ :: _ :: rest => simp only [List.length_cons] at h; omega

section
variable {reject : Bool} {id len : Byte} {rest : Bytes}

theorem msgUnpack_of_truncated (h : rest.length < len.toNat) :
    msgUnpack reject (id :: len :: rest) = .error .msgTruncated := if_pos h

theorem msgUnpack_of_trailing (h : len.toNat < rest.length) (hreject : reject = true) :
    msgUnpack reject (id :: len :: rest) = .error .msgTrailing :=
  (if_neg h.le.not_gt).trans (if_pos ⟨hreject, h⟩)

theorem msgUnpack_of_fits (h : len.toNat ≤ rest.length) (hreject : reject = true → len.toNat = rest.length) :
    msgUnpack reject (id :: len :: rest) = .ok { id := id, length := len, payload := rest.take len.toNat } :=
  (if_neg h.not_gt).trans (if_neg fun ⟨hr, hlt⟩ => hlt.ne (hreject hr))

end

/-- Settles O40: the length byte of a packed message is the length of its payload, so nothing is missing and nothing
trails. -/
theorem msgUnpackInvertsPack : Obligations.MsgUnpackInvertsPack := by
  intro reject id p hp
  have hlen : (BitVec.ofNat 8 p.length).toNat = p.length :=
    Nat.mod_eq_of_lt (Nat.lt_of_le_of_lt hp (by decide))
  refine ⟨_, msgPack_of_short hp, ?_⟩
  rw [msgUnpack_of_fits hlen.le fun _ => hlen, hlen, List.take_length]

/-! ### Message ids (R172 to R174, R176) -/

theorem msgIsResponse_eq_getLsbD (id : Byte) : msgIsResponse id = id.getLsbD 7 := by
  have hand : id &&& Config.respBit = if id.getLsbD 7 then BitVec.twoPow 8 7 else 0#8 := BitVec.and_twoPow id 7
  rw [msgIsResponse, hand]
  cases id.getLsbD 7 <;> rfl

theorem msgIsResponse_or_respBit (id : Byte) : msgIsResponse (id ||| 0x80) = true := by
  rw [msgIsResponse_eq_getLsbD, BitVec.getLsbD_or]
  exact Bool.or_true _

theorem msgIsResponse_of_request {r : Byte} (h : r.toNat ≤ 0x7F) : msgIsResponse r = false := by
  rw [msgIsResponse_eq_getLsbD]
  exact Nat.testBit_lt_two_pow (Nat.lt_succ_of_le h)

theorem msgRequestId_or_respBit (id : Byte) : msgRequestId (id ||| 0x80) = msgRequestId id :=
  BitVec.and_or_distrib_right.trans (BitVec.or_zero)

theorem msgRequestId_of_request {r : Byte} (h : r.toNat ≤ 0x7F) : msgRequestId r = r :=
  BitVec.eq_of_toNat_eq
    ((BitVec.toNat_and r 0x7F).trans (Nat.and_two_pow_sub_one_of_lt_two_pow (n := 7) (Nat.lt_succ_of_le h)))

theorem msgGroup_or_respBit (id : Byte) : msgGroup (id ||| 0x80) = msgGroup id := by
  rw [msgGroup, msgRequestId_or_respBit, msgGroup]

/-- R174: the table of the groups. -/
theorem msgGroup_ranges (id : Byte) :
    ((id &&& 0x7F).toNat ≤ 0x0F → msgGroup id = 0) ∧
    (0x10 ≤ (id &&& 0x7F).toNat → (id &&& 0x7F).toNat ≤ 0x2F → msgGroup id = 1) ∧
    (0x30 ≤ (id &&& 0x7F).toNat → (id &&& 0x7F).toNat ≤ 0x3F → msgGroup id = 2) ∧
    (0x40 ≤ (id &&& 0x7F).toNat → (id &&& 0x7F).toNat ≤ 0x4F → msgGroup id = 3) ∧
    (0x50 ≤ (id &&& 0x7F).toNat → msgGroup id = 4) := by
  rw [msgGroup, msgRequestId]
  generalize (id &&& 0x7F).toNat = r
  refine ⟨fun hhi => if_pos hhi, fun hlo hhi => ?_, fun hlo hhi => ?_, fun hlo hhi => ?_, fun hlo => ?_⟩
  · rw [if_neg (by omega), if_pos hhi]
  · rw [if_neg (by omega), if_neg (by omega), if_pos hhi]
  · rw [if_neg (by omega), if_neg (by omega), if_neg (by omega), if_pos hhi]
  · rw [if_neg (by omega), if_neg (by omega), if_neg (by omega), if_neg (by omega)]

end Sys2Proof.Machine
end

section
/-! ## The message commands (R177 to R181, R253, R254) -/

namespace Sys2Proof.Machine

/-- Settles O37: at most 250 bytes always pack, and the low byte of IN_LEN is the length byte. -/
theorem msgPackPutsHeaderBeforePayload : Obligations.MsgPackPutsHeaderBeforePayload := by
  refine fun s => ⟨fun hshort => ?_, exec_oversize rfl⟩
  have hpack : msgPack s.msgId s.input = .ok (s.msgId :: s.inLen.setWidth 8 :: s.input) := by
    rw [msgPack_of_short (s.input_length.trans_le hshort), State.input_length, BitVec.ofNat_toNat]
  exact exec_bytesOut_ok (i := .msgPack) rfl hshort hpack

section
variable {s : State} (hshort : s.inLen.toNat ≤ 256)
include hshort

/-- R178, R253: RES_ID, RES_LEN and OUT are the three parts of the message. -/
theorem exec_msgUnpack_ok {m : Message} (h : msgUnpack s.config.rejectTrailing s.input = .ok m) :
    ∃ t : State, exec .msgUnpack s = .next t ∧ Succeeded s t false ∧ t.resId = .value m.id ∧
      t.resLen = .value m.length ∧ OutHolds t m.payload := by
  have hbody : commandBody .msgUnpack s =
      .ok { resId := some m.id, resLen := some m.length, out := m.payload } := by
    rw [commandBody, msgUnpackBody, State.withInput_le hshort, h]
  exact ⟨_, exec_of_ok hbody, rfl, rfl, rfl, outHolds_of_ok hbody⟩

theorem exec_msgUnpack_error {c : ErrorCode} (h : msgUnpack s.config.rejectTrailing s.input = .error c) :
    ∃ t : State, exec .msgUnpack s = .next t ∧ FailedWith s t c :=
  exec_failedWith (by rw [commandBody, msgUnpackBody, State.withInput_le hshort, h])

end

/-- Settles O38: the command ends as `msg_unpack` of its input does. -/
theorem msgUnpackTakesDeclaredLength : Obligations.MsgUnpackTakesDeclaredLength := by
  refine fun s => ⟨exec_oversize rfl, fun htwo => ?_,
    fun id len rest hshort hin => ⟨fun hlt => ?_, fun hlt hreject => ?_, fun hle hreject => ?_⟩,
    fun _ _ => msgUnpack_of_short,
    fun _ _ _ _ => ⟨msgUnpack_of_truncated, msgUnpack_of_trailing, msgUnpack_of_fits⟩⟩
  · exact exec_msgUnpack_error (by omega) (msgUnpack_of_short (s.input_length.trans_lt htwo))
  · exact exec_msgUnpack_error hshort (hin ▸ msgUnpack_of_truncated hlt)
  · exact exec_msgUnpack_error hshort (hin ▸ msgUnpack_of_trailing hlt hreject)
  · exact exec_msgUnpack_ok hshort (hin ▸ msgUnpack_of_fits hle hreject)

/-- Settles O39: the three bodies never fail and read MSG_ID alone; the algebra is that of bit 7 and the mask. -/
theorem messageIdCommandsReadMsgIdAlone : Obligations.MessageIdCommandsReadMsgIdAlone := by
  intro s
  rw [← msgIsResponse_eq_getLsbD s.msgId]
  refine ⟨⟨_, exec_of_ok rfl, rfl, rfl⟩, ⟨_, exec_of_ok rfl, rfl, rfl, rfl⟩,
    ⟨_, msgGroup s.msgId, exec_of_ok rfl, rfl, rfl, rfl, msgGroup_ranges s.msgId⟩, fun r hr => ?_⟩
  have hreq := msgRequestId_of_request hr
  exact ⟨msgIsResponse_or_respBit r, (msgRequestId_or_respBit r).trans hreq, msgIsResponse_of_request hr, hreq,
    msgGroup_or_respBit r⟩

end Sys2Proof.Machine
end

section
/-! ## Packing a layout, and the inverse laws (R204 to R206, R255) -/

namespace Sys2Proof.Machine

/-! ### One turn of the packing loop (R204) -/

/-- R204: field `f` packs the value `v`: it fits, and its raw value is a member. -/
def FieldPasses (f : FieldDesc) (v : Word64) : Prop :=
  fieldFits f v = true ∧ fieldMember f (v.setWidth (8 * f.width.bytes)) = true

section
variable {f : FieldDesc} {v : Word64} {rest : List (FieldDesc × Word64)}

theorem packFields_cons_of_not_fits (h : fieldFits f v = false) :
    packFields ((f, v) :: rest) = .error .fieldRange := by
  simp [packFields, h]

theorem packFields_cons_of_not_member (hfits : fieldFits f v = true)
    (h : fieldMember f (v.setWidth (8 * f.width.bytes)) = false) :
    packFields ((f, v) :: rest) = .error .enumUnknown := by
  simp [packFields, hfits, h]

theorem packFields_cons_of_passes (h : FieldPasses f v) :
    packFields ((f, v) :: rest) =
      (packFields rest).map (leBytes f.width.bytes (v.setWidth (8 * f.width.bytes)) ++ ·) := by
  obtain ⟨hfits, hmember⟩ := h
  simp only [packFields, hfits, hmember, if_true]
  cases packFields rest <;> rfl

/-- R204: a loop that succeeds passed its first field and packed the others. -/
theorem packFields_cons_ok {b : Bytes} (h : packFields ((f, v) :: rest) = .ok b) :
    FieldPasses f v ∧ ∃ out, packFields rest = .ok out ∧
      b = leBytes f.width.bytes (v.setWidth (8 * f.width.bytes)) ++ out := by
  cases hfits : fieldFits f v with
  | false => cases (packFields_cons_of_not_fits hfits).symm.trans h
  | true =>
    cases hmember : fieldMember f (v.setWidth (8 * f.width.bytes)) with
    | false => cases (packFields_cons_of_not_member hfits hmember).symm.trans h
    | true =>
      rw [packFields_cons_of_passes ⟨hfits, hmember⟩] at h
      cases hrest : packFields rest with
      | error e => rw [hrest] at h; cases h
      | ok out => rw [hrest] at h; exact ⟨⟨hfits, hmember⟩, out, rfl, (Except.ok.inj h).symm⟩

end

/-! ### The first failing field (R255 (5)) -/

/-- R204: the loop ends with the error of the first field that does not pass, whatever stands after it. -/
theorem packFields_of_first_failure {fvs : List (FieldDesc × Word64)} {k : Nat} {f : FieldDesc} {v : Word64}
    {e : ErrorCode} (hk : fvs[k]? = some (f, v))
    (hbefore : ∀ (j : Nat) (g : FieldDesc) (u : Word64), j < k → fvs[j]? = some (g, u) → FieldPasses g u)
    (hfail : ∀ rest, packFields ((f, v) :: rest) = .error e) : packFields fvs = .error e := by
  induction fvs generalizing k with
  | nil => cases hk
  | cons fv rest ih =>
    cases k with
    | zero =>
      obtain rfl : fv = (f, v) := Option.some.inj hk
      exact hfail rest
    | succ k =>
      have hrest : packFields rest = .error e :=
        ih hk fun j g u hj hgu => hbefore (j + 1) g u (Nat.succ_lt_succ hj) hgu
      have hhead : FieldPasses fv.1 fv.2 := hbefore 0 _ _ (Nat.succ_pos k) rfl
      exact (packFields_cons_of_passes hhead).trans (by rw [hrest]; rfl)

theorem packFields_of_all_pass {fvs : List (FieldDesc × Word64)} (h : ∀ fv ∈ fvs, FieldPasses fv.1 fv.2) :
    ∃ b, packFields fvs = .ok b := by
  induction fvs with
  | nil => exact ⟨[], rfl⟩
  | cons fv rest ih =>
    obtain ⟨hhead, htail⟩ := List.forall_mem_cons.mp h
    obtain ⟨out, hout⟩ := ih htail
    exact ⟨_, (packFields_cons_of_passes hhead).trans (by rw [hout]; rfl)⟩

/-- Settles O44: the pairs the loop runs over are the fields and the values at the same index. -/
theorem structPackReportsFirstFailingField : Obligations.StructPackReportsFirstFailingField := by
  refine fun l vs _ => ⟨fun k f v hf hv hbefore => ?_, fun hall => ?_⟩
  · have hk : (l.fields.zip vs)[k]? = some (f, v) := List.getElem?_zip_eq_some.mpr ⟨hf, hv⟩
    have hpass : ∀ (j : Nat) (g : FieldDesc) (u : Word64), j < k → (l.fields.zip vs)[j]? = some (g, u) →
        FieldPasses g u := fun j g u hj hgu => by
      obtain ⟨hg, hu⟩ := List.getElem?_zip_eq_some.mp hgu
      exact hbefore j g u hj hg hu
    exact ⟨fun hfits => packFields_of_first_failure hk hpass fun _ => packFields_cons_of_not_fits hfits,
      fun hfits hm => packFields_of_first_failure hk hpass fun _ => packFields_cons_of_not_member hfits hm⟩
  · refine packFields_of_all_pass fun fv hfv => ?_
    obtain ⟨j, hj⟩ := List.mem_iff_getElem?.mp hfv
    obtain ⟨hg, hu⟩ := List.getElem?_zip_eq_some.mp hj
    exact hall j fv.1 fv.2 hg hu

/-! ### Unpacking undoes packing -/

@[simp] theorem fieldsWidth_cons (f : FieldDesc) (fs : List FieldDesc) :
    fieldsWidth (f :: fs) = f.width.bytes + fieldsWidth fs := by
  simp [fieldsWidth]

theorem rawFieldOf_zero (fs : List FieldDesc) (b : Bytes) (f : FieldDesc) :
    rawFieldOf fs b 0 f = BitVec.ofNat (8 * f.width.bytes) (fromLe (b.take f.width.bytes)) := by
  simp [rawFieldOf, fieldsWidth]

theorem rawFieldOf_leBytes_append (fs : List FieldDesc) (f : FieldDesc) (raw : BitVec (8 * f.width.bytes))
    (out : Bytes) : rawFieldOf fs (leBytes f.width.bytes raw ++ out) 0 f = raw := by
  rw [rawFieldOf_zero, List.take_left' (leBytes_length _ raw), fromLe_leBytes, BitVec.ofNat_toNat, BitVec.setWidth_eq]

/-- R206: a field that packs `v` unpacks `v` from its bytes, and leaves what stands after them. -/
theorem unpackFields_cons_of_passes {f : FieldDesc} {v : Word64} (h : FieldPasses f v) (fs : List FieldDesc)
    (out : Bytes) :
    unpackFields (f :: fs) (leBytes f.width.bytes (v.setWidth (8 * f.width.bytes)) ++ out) =
      (unpackFields fs out).map (v :: ·) := by
  obtain ⟨hfits, hmember⟩ := h
  rcases unpackFields_cons f fs (leBytes f.width.bytes (v.setWidth (8 * f.width.bytes)) ++ out) with
    ⟨hm, -⟩ | ⟨-, he⟩
  · rw [rawFieldOf_leBytes_append, hmember] at hm
    cases hm
  · rw [he, rawFieldOf_leBytes_append, (fieldFits_iff f v).mp hfits, List.drop_left' (leBytes_length _ _)]

/-- R201, R206: packing gives as many bytes as the fields are wide, and unpacking gives the values back. -/
theorem packFields_ok {fvs : List (FieldDesc × Word64)} {b : Bytes} (h : packFields fvs = .ok b) :
    b.length = fieldsWidth (fvs.map Prod.fst) ∧ unpackFields (fvs.map Prod.fst) b = .ok (fvs.map Prod.snd) := by
  induction fvs generalizing b with
  | nil =>
    obtain rfl : [] = b := Except.ok.inj h
    exact ⟨rfl, rfl⟩
  | cons fv rest ih =>
    obtain ⟨hpass, out, hout, rfl⟩ := packFields_cons_ok h
    obtain ⟨hlen, hunpack⟩ := ih hout
    refine ⟨by simp [leBytes_length, hlen], ?_⟩
    rw [List.map_cons, unpackFields_cons_of_passes hpass, hunpack]
    rfl

/-! ### Packing undoes unpacking -/

theorem setWidth_signExtend {m n : Nat} (h : m ≤ n) (x : BitVec m) : (x.signExtend n).setWidth m = x := by
  ext i hi
  simp [BitVec.getElem_signExtend, hi, Nat.lt_of_lt_of_le hi h]

/-- R12: truncation to the field undoes the widening, by sign or by zeros. -/
theorem setWidth_fieldWiden (f : FieldDesc) (raw : BitVec (8 * f.width.bytes)) :
    (fieldWiden f raw).setWidth (8 * f.width.bytes) = raw := by
  have hle := fieldBits_le f.width
  unfold fieldWiden
  split
  · exact setWidth_signExtend hle raw
  · exact (BitVec.setWidth_setWidth_of_le raw hle).trans (BitVec.setWidth_eq raw)

theorem fieldPasses_fieldWiden {f : FieldDesc} {raw : BitVec (8 * f.width.bytes)} (h : fieldMember f raw = true) :
    FieldPasses f (fieldWiden f raw) :=
  ⟨(fieldFits_iff f _).mpr (congrArg (fieldWiden f) (setWidth_fieldWiden f raw)), by rwa [setWidth_fieldWiden]⟩

/-- R205: a loop that succeeds read a member first and unpacked the others. -/
theorem unpackFields_cons_ok {f : FieldDesc} {fs : List FieldDesc} {b : Bytes} {vs : List Word64}
    (h : unpackFields (f :: fs) b = .ok vs) :
    fieldMember f (rawFieldOf (f :: fs) b 0 f) = true ∧ ∃ us, unpackFields fs (b.drop f.width.bytes) = .ok us ∧
      vs = fieldWiden f (rawFieldOf (f :: fs) b 0 f) :: us := by
  rcases unpackFields_cons f fs b with ⟨-, he⟩ | ⟨hm, he⟩
  · cases he.symm.trans h
  · rw [he] at h
    cases hu : unpackFields fs (b.drop f.width.bytes) with
    | error e => rw [hu] at h; cases h
    | ok us => rw [hu] at h; exact ⟨hm, us, rfl, (Except.ok.inj h).symm⟩

/-- R206: packing what an unpacking gave gives the bytes the fields were read from. -/
theorem packFields_zip_of_unpackFields {fs : List FieldDesc} {b : Bytes} {vs : List Word64}
    (hlong : fieldsWidth fs ≤ b.length) (h : unpackFields fs b = .ok vs) :
    packFields (fs.zip vs) = .ok (b.take (fieldsWidth fs)) := by
  induction fs generalizing b vs with
  | nil => rfl
  | cons f fs ih =>
    rw [fieldsWidth_cons] at hlong ⊢
    obtain ⟨hm, us, hus, rfl⟩ := unpackFields_cons_ok h
    have hrest := ih (by rw [List.length_drop]; omega) hus
    have hbytes : leBytes f.width.bytes (rawFieldOf (f :: fs) b 0 f) = b.take f.width.bytes := by
      rw [rawFieldOf_zero]
      exact leBytes_fromLe _ _ (List.length_take_of_le (by omega))
    rw [List.zip_cons_cons, packFields_cons_of_passes (fieldPasses_fieldWiden hm), setWidth_fieldWiden, hrest, hbytes,
      List.take_add]
    rfl

theorem unpackFields_append {fs : List FieldDesc} {b : Bytes} (h : fieldsWidth fs ≤ b.length) (x : Bytes) :
    unpackFields fs (b ++ x) = unpackFields fs b := by
  induction fs generalizing b with
  | nil => rfl
  | cons f fs ih =>
    rw [fieldsWidth_cons] at h
    have hhead : f.width.bytes ≤ b.length := by omega
    have htail : unpackFields fs (b.drop f.width.bytes ++ x) = unpackFields fs (b.drop f.width.bytes) :=
      ih (by rw [List.length_drop]; omega)
    simp only [unpackFields, List.take_append_of_le_length hhead, List.drop_append_of_le_length hhead, htail]

/-! ### The functions of R204 and R205 -/

/-- R204: values beyond the layout's fields are not looked at. -/
theorem structPack_take (l : Layout) (vs : List Word64) :
    structPack l (vs.take l.fields.length) = structPack l vs := by
  unfold structPack
  rw [List.zip_eq_zip_take_min, List.zip_eq_zip_take_min (l₂ := vs)]
  simp [List.take_take]

/-- R201, R206: `packFields_ok`, for one value a field. -/
theorem structPack_ok {l : Layout} {vs : List Word64} {b : Bytes} (hlen : vs.length = l.fields.length)
    (h : structPack l vs = .ok b) : b.length = fieldsWidth l.fields ∧ structUnpack l b = .ok vs := by
  obtain ⟨hwidth, hunpack⟩ := packFields_ok h
  rw [List.map_fst_zip hlen.ge] at hwidth hunpack
  rw [List.map_snd_zip hlen.le] at hunpack
  exact ⟨hwidth, (structUnpack_of_long hwidth.ge).trans hunpack⟩

/-- Settles O43: each law is that of the loops, the length check of `struct_unpack` being met. -/
theorem structPackAndUnpackAreInverse : Obligations.StructPackAndUnpackAreInverse := by
  refine fun l => ⟨fun vs b hlen hpack => ?_, fun vs b hunpack => ?_, fun b x hlong => ?_⟩
  · rw [← structPack_take] at hpack
    exact (structPack_ok (List.length_take_of_le hlen) hpack).2
  · rcases Nat.lt_or_ge b.length (fieldsWidth l.fields) with hshort | hlong
    · cases (structUnpack_of_short hshort).symm.trans hunpack
    · exact packFields_zip_of_unpackFields hlong ((structUnpack_of_long hlong).symm.trans hunpack)
  · have happend : fieldsWidth l.fields ≤ (b ++ x).length := by rw [List.length_append]; omega
    rw [structUnpack_of_long happend, structUnpack_of_long hlong, unpackFields_append hlong]

end Sys2Proof.Machine
end

section
/-! ## The struct commands (R207, R208, R253, R254) -/

namespace Sys2Proof.Machine

theorem State.fieldValues_length (s : State) : s.fieldValues.length = 16 := by
  simp [State.fieldValues]

/-- R207: the layouts have at most 16 fields, so each has a FIELD register. -/
theorem State.fieldValues_take_length (s : State) (l : Layout) :
    (s.fieldValues.take l.fields.length).length = l.fields.length :=
  List.length_take_of_le (l.atMost16.trans s.fieldValues_length.ge)

theorem commandBody_structPack_of_absent {s : State} (h : s.selectedLayout = none) :
    commandBody .structPack s = .error .badLayout := by
  rw [commandBody, structPackBody, h]

theorem commandBody_structPack_of_layout {s : State} {l : Layout} (h : s.selectedLayout = some l) :
    commandBody .structPack s = bytesOut (structPack l (s.fieldValues.take l.fields.length)) := by
  rw [commandBody, structPackBody, h, structPack_take]

/-- Settles O41: the body packs all 16 FIELD values, of which `struct_pack` looks at those the layout has fields for. -/
theorem structPackCommandPacksFields : Obligations.StructPackCommandPacksFields := by
  refine fun s => ⟨fun hl => exec_failedWith (commandBody_structPack_of_absent hl),
    fun l _ => s.fieldValues_take_length l, fun l b hl hpack => ?_, fun l e hl hpack => ?_⟩
  · have hok : commandBody .structPack s = .ok { out := b } := by
      rw [commandBody_structPack_of_layout hl, hpack, bytesOut]
    exact ⟨_, exec_of_ok hok, rfl, outHolds_of_ok hok, (structPack_ok (s.fieldValues_take_length l) hpack).1⟩
  · exact exec_failedWith (by rw [commandBody_structPack_of_layout hl, hpack, bytesOut])

/-- R67, R208: FIELD[j] holds the j-th value as two halves, or what it held where there is none. -/
theorem writeFields_cases (fs : Vector FieldReg 16) (vs : List Word64) (j : Fin 16) :
    (∀ v, vs[j.val]? = some v → (writeFields fs vs)[j] = FieldReg.ofValue v) ∧
    (vs.length ≤ j.val → (writeFields fs vs)[j] = fs[j]) := by
  rw [writeFields_get]
  refine ⟨fun v hv => ?_, fun hle => dif_neg hle.not_gt⟩
  obtain ⟨hlt, rfl⟩ := List.getElem?_eq_some_iff.mp hv
  exact dif_pos hlt

/-- Settles O42: the length check, the layout, then `struct_unpack` of the input. -/
theorem structUnpackCommandWritesFields : Obligations.StructUnpackCommandWritesFields := by
  refine fun s => ⟨exec_oversize rfl, fun hshort hl => exec_failedWith ?_, fun l vs hshort hl hvs => ?_,
    fun l e hshort hl he => exec_failedWith ?_⟩
  · rw [commandBody, structUnpackBody, State.withInput_le hshort, hl]
  · have hok : commandBody .structUnpack s = .ok { fields := vs } := by
      rw [commandBody, structUnpackBody, State.withInput_le hshort, hl]
      simp only [hvs]
    exact ⟨_, exec_of_ok hok, rfl, rfl, structUnpack_ok_length hvs, writeFields_cases s.fields vs⟩
  · rw [commandBody, structUnpackBody, State.withInput_le hshort, hl]
    simp only [he]

end Sys2Proof.Machine
end

section
/-! ## The frame assembler and parser (R230 to R233, R236) -/

namespace Sys2Proof.Machine

/-! ### Sending (R230, R232, R233) -/

/-- R230: at most 246 bytes always have a frame: with their header and CRC they are at most 250. -/
theorem txFrame_of_short (id : Byte) {p : Bytes} (h : p.length ≤ 246) :
    ∃ r, cobsEncode (crc16Append (id :: BitVec.ofNat 8 p.length :: p)) = .ok r ∧
      txFrame id p = .ok (r ++ [0x00], crc16Calculate (id :: BitVec.ofNat 8 p.length :: p)) := by
  have hlen : (crc16Append (id :: BitVec.ofNat 8 p.length :: p)).length ≤ 250 := by
    simp only [crc16Append_length, List.length_cons]; omega
  obtain ⟨ds, -, henc, -⟩ := cobsEncode_eq_blocks hlen
  refine ⟨_, henc, ?_⟩
  rw [txFrame, msgPack_of_short (h.trans (by decide))]
  simp only [cobsFrame_of_ok henc]

theorem txFrame_ok {id : Byte} {p f : Bytes} {c : Word16} (h : txFrame id p = .ok (f, c)) :
    p.length ≤ 246 ∧ c = crc16Calculate (id :: BitVec.ofNat 8 p.length :: p) ∧
      ∃ r, cobsEncode (crc16Append (id :: BitVec.ofNat 8 p.length :: p)) = .ok r ∧ f = r ++ [0x00] := by
  rcases Nat.lt_or_ge 246 p.length with hlong | hshort
  · cases (txFrame_of_long hlong).symm.trans h
  · obtain ⟨r, henc, hframe⟩ := txFrame_of_short id hshort
    cases hframe.symm.trans h
    exact ⟨hshort, rfl, r, henc, rfl⟩

/-- R233: a two-byte header, a two-byte CRC, one code byte and the delimiter. -/
theorem txFrame_ok_length_eq {id : Byte} {p f : Bytes} {c : Word16} (h : txFrame id p = .ok (f, c)) :
    f.length = p.length + 6 := by
  obtain ⟨-, -, r, henc, rfl⟩ := txFrame_ok h
  rw [List.length_append, (cobsEncode_ok_length henc).2]
  simp only [crc16Append_length, List.length_cons, List.length_nil]

theorem zero_not_mem_of_cobsEncode_ok {x r : Bytes} (h : cobsEncode x = .ok r) : (0x00 : Byte) ∉ r := by
  obtain ⟨ds, -, henc, -, -, -, hzero⟩ := (cobsEncodeIsZeroFreeBlocks x).1 (cobsEncode_ok_length h).1
  obtain rfl := Except.ok.inj (henc.symm.trans h)
  exact hzero

/-- Settles O49: the frame is the zero-free encoding of the payload with four more bytes, and the delimiter. -/
theorem frameLimitLengthAndOnlyZero : Obligations.FrameLimitLengthAndOnlyZero := by
  refine fun id p => ⟨⟨fun ⟨_, hok⟩ => (txFrame_ok hok).1, fun hshort => ?_⟩, fun hlong hmsg => ?_, fun f c hok => ?_⟩
  · obtain ⟨r, -, hframe⟩ := txFrame_of_short id hshort
    exact ⟨_, hframe⟩
  · refine ⟨_, msgPack_of_short hmsg, cobsFrame_of_long ?_, txFrame_of_long hlong⟩
    simp only [crc16Append_length, List.length_cons]; omega
  · obtain ⟨-, -, r, henc, rfl⟩ := txFrame_ok hok
    exact ⟨txFrame_ok_length_eq hok, txFrame_ok_length hok, r, rfl, zero_not_mem_of_cobsEncode_ok henc⟩

/-! ### Receiving (R231, R236) -/

section
variable {strict reject : Bool} {f : Bytes}

theorem rxFrame_of_unframe_error {e : ErrorCode} (h : cobsUnframe strict f = .error e) :
    rxFrame strict reject f = .error e := by
  rw [rxFrame, h]

theorem rxFrame_of_not_append {u : Bytes} (h : cobsUnframe strict f = .ok u) (hcrc : ∀ d, u ≠ crc16Append d) :
    rxFrame strict reject f = .error .checksumMismatch := by
  simp only [rxFrame, h, crc16CheckAndStrip_of_not_append hcrc]

variable {d : Bytes} (h : cobsUnframe strict f = .ok (crc16Append d))
include h

theorem rxFrame_of_unpack_error {e : ErrorCode} (he : msgUnpack reject d = .error e) :
    rxFrame strict reject f = .error e := by
  simp only [rxFrame, h, crc16CheckAndStrip_crc16Append, he]

theorem rxFrame_of_unpack_ok {m : Message} (hm : msgUnpack reject d = .ok m) :
    rxFrame strict reject f = .ok (m, crc16Calculate d) := by
  simp only [rxFrame, h, crc16CheckAndStrip_crc16Append, hm]

end

theorem msgUnpack_header_cons (reject : Bool) (id : Byte) {p : Bytes} (h : p.length ≤ 250) :
    msgUnpack reject (id :: BitVec.ofNat 8 p.length :: p) =
      .ok { id := id, length := BitVec.ofNat 8 p.length, payload := p } := by
  obtain ⟨m, hpack, hunpack⟩ := msgUnpackInvertsPack reject id p h
  obtain rfl := Except.ok.inj ((msgPack_of_short h).symm.trans hpack)
  exact hunpack

/-- Settles O50: each stage of the receiver undoes one of the sender, whatever the two flags. -/
theorem frameRoundTrip : Obligations.FrameRoundTrip := by
  intro strict reject id p f c hok
  obtain ⟨hp, rfl, r, henc, rfl⟩ := txFrame_ok hok
  have hunframe := (cobsUnframe_append_delim strict r).trans (cobsDecode_cobsEncode henc strict)
  exact rxFrame_of_unpack_ok hunframe (msgUnpack_header_cons reject id (hp.trans (by decide)))

end Sys2Proof.Machine
end

section
/-! ## The frame commands (R234 to R236, R253, R254, R290) -/

namespace Sys2Proof.Machine

/-! ### TX_FRAME (R234) -/

/-- R234, R253: the results are the frame and the CRC. -/
theorem exec_txFrame_ok {s : State} {f : Bytes} {c : Word16} (h : txFrame s.msgId s.input = .ok (f, c)) :
    ∃ t : State, exec .txFrame s = .next t ∧ Succeeded s t false ∧ OutHolds t f ∧ t.crcRes = .value c := by
  have hbody : commandBody .txFrame s = .ok { crcRes := some c, out := f } := by
    rw [commandBody, txFrameBody, h]
  exact ⟨_, exec_of_ok hbody, rfl, outHolds_of_ok hbody, rfl⟩

/-- Settles O47: the command's results are those of `tx_frame`, and the low byte of IN_LEN is the length byte. -/
theorem txFrameCommandBuildsFrame : Obligations.TxFrameCommandBuildsFrame := by
  refine fun s => ⟨fun hshort => ?_, exec_oversize_crcRes rfl rfl⟩
  obtain ⟨r, henc, hframe⟩ := txFrame_of_short s.msgId (s.input_length.trans_le hshort)
  have hlen := txFrame_ok_length_eq hframe
  obtain ⟨t, ht, hst, hout, hcrc⟩ := exec_txFrame_ok hframe
  rw [State.input_length] at hlen
  rw [State.input_length, BitVec.ofNat_toNat] at henc hcrc
  exact ⟨t, r, ht, hst, henc, hout, hout.1.trans hlen, hcrc⟩

/-! ### RX_FRAME (R235) -/

section
variable {s : State} (hshort : s.inLen.toNat ≤ 256)
include hshort

/-- R235, R253: the results are the parts of the message and the CRC. -/
theorem exec_rxFrame_ok {m : Message} {c : Word16}
    (h : rxFrame s.config.strictZero s.config.rejectTrailing s.input = .ok (m, c)) :
    ∃ t : State, exec .rxFrame s = .next t ∧ Succeeded s t false ∧ t.resId = .value m.id ∧
      t.resLen = .value m.length ∧ OutHolds t m.payload ∧ t.crcRes = .value c := by
  have hbody : commandBody .rxFrame s =
      .ok { crcRes := some c, resId := some m.id, resLen := some m.length, out := m.payload } := by
    rw [commandBody, rxFrameBody, State.withInput_le hshort, h]
  exact ⟨_, exec_of_ok hbody, rfl, rfl, rfl, outHolds_of_ok hbody, rfl⟩

theorem exec_rxFrame_error {c : ErrorCode}
    (h : rxFrame s.config.strictZero s.config.rejectTrailing s.input = .error c) :
    ∃ t : State, exec .rxFrame s = .next t ∧ FailedWith s t c :=
  exec_failedWith (by rw [commandBody, rxFrameBody, State.withInput_le hshort, h])

end

/-- Settles O48: the command ends as `rx_frame` of its input does, stage by stage. -/
theorem rxFrameCommandRunsStagesInOrder : Obligations.RxFrameCommandRunsStagesInOrder := fun _ =>
  ⟨exec_oversize rfl, fun hshort =>
    ⟨fun _ hunframe => exec_rxFrame_error hshort (rxFrame_of_unframe_error hunframe),
      fun _ hunframe hcrc => exec_rxFrame_error hshort (rxFrame_of_not_append hunframe hcrc),
      fun _ _ hunframe he => exec_rxFrame_error hshort (rxFrame_of_unpack_error hunframe he),
      fun _ _ hunframe hm => exec_rxFrame_ok hshort (rxFrame_of_unpack_ok hunframe hm)⟩⟩

/-! ### From block to block (R236) -/

theorem OutHolds.unique {t : State} {a b : Bytes} (ha : OutHolds t a) (hb : OutHolds t b) : a = b := by
  obtain ⟨hlen, ha⟩ := ha
  obtain ⟨hlen', hb⟩ := hb
  exact List.ext_getElem (hlen.symm.trans hlen') fun j hj hj' => Option.some.inj ((ha j hj).symm.trans (hb j hj'))

theorem InHolds.input_eq {s : State} {d : Bytes} (h : InHolds s d) : s.input = d := by
  obtain ⟨hlen, hbytes⟩ := h
  refine List.ext_getElem (s.input_length.trans hlen) fun j _ hj => ?_
  rw [← State.byteAt_of_read? (hbytes j hj)]
  simp [State.input, State.inBytes]

/-- Settles O51: OUT of the sender is the frame of its operands, which the receiver's flags do not matter for. -/
theorem frameTravelsBetweenBlocks : Obligations.FrameTravelsBetweenBlocks := by
  intro s t u f hshort hexec hout hin
  obtain ⟨r, -, hframe⟩ := txFrame_of_short s.msgId (s.input_length.trans_le hshort)
  obtain ⟨t', ht', -, hout', hcrc⟩ := exec_txFrame_ok hframe
  obtain rfl := Host.Outcome.next.inj (ht'.symm.trans hexec)
  obtain rfl := hout'.unique hout
  have hfits : u.inLen.toNat ≤ 256 := hin.1.trans_le ((txFrame_ok_length hframe).trans (by decide))
  have hrx := frameRoundTrip u.config.strictZero u.config.rejectTrailing _ _ _ _ hframe
  rw [← hin.input_eq] at hrx
  obtain ⟨v, hv, hst, hid, hlen, hpayload, hres⟩ := exec_rxFrame_ok hfits hrx
  rw [State.input_length, BitVec.ofNat_toNat] at hlen
  exact ⟨v, hv, hst, hid, hlen, hpayload, hres.trans hcrc.symm⟩

end Sys2Proof.Machine
end

section
/-! ## What an error leaves unspecified (R252, R254) -/

namespace Sys2Proof.Machine

/-- R254: an error forgets both halves of every FIELD register of the output set. -/
theorem State.forgetOutputs_field_of_writes {s : State} {i : Instr} {j : Fin 16} (h : WritesField i s j) :
    (s.forgetOutputs (outputSetOf i s.fieldCount)).fields[j] = { lo := .unspecified, hi := .unspecified } := by
  obtain ⟨rfl, hj⟩ := h
  rw [State.forgetOutputs_fields, forgetFields_get]
  exact if_pos hj

/-- R254: an error forgets every byte of OUT, where OUT is in the output set. -/
theorem State.forgetOutputs_read?_out {s : State} {i : Instr} (h : writesOut i = true) {j : Nat} (hj : j < 256) :
    (s.forgetOutputs (outputSetOf i s.fieldCount)).mem.read? (0x200 + j) = none := by
  rw [State.forgetOutputs_mem, outputSetOf_out, h, if_pos rfl, Memory.read?_forget]
  exact if_pos ⟨Nat.le_add_right _ _, Nat.add_lt_add_left hj _⟩

/-- Settles O17: a completion with ERR not 0 is that of an error, which forgets the output set member by member. -/
theorem errorLeavesOutputSetUnspecified : Obligations.ErrorLeavesOutputSetUnspecified := by
  intro i s t ht herr
  rcases exec_cases ht with ⟨e, -, rfl⟩ | ⟨c, -, rfl⟩
  · exact absurd rfl herr
  · refine ⟨rfl, rfl, fun h => ?_, fun h => ?_, fun h => ?_,
      fun h j hj => State.forgetOutputs_read?_out h hj, fun j h => State.forgetOutputs_field_of_writes h⟩
    · simp [outputSetOf_crcRes, h]
    · simp [outputSetOf_resId, h]
    · simp [outputSetOf_resLen, h]

end Sys2Proof.Machine
end

section
/-! ## Which errors a command can end with (R250) -/

namespace Sys2Proof.Machine

/-! ### The errors of the codec functions -/

theorem cobsWalk_error {strict owed : Bool} {need : Nat} {e : Bytes} {c : ErrorCode}
    (h : cobsWalk strict owed need e = .error c) :
    c = .cobsZeroCode ∨ c = .cobsOverrun ∨ (c = .cobsDataZero ∧ strict = true) := by
  induction e generalizing owed need with
  | nil =>
    cases need with
    | zero => cases h
    | succ need => exact .inr (.inl (Except.error.inj h).symm)
  | cons b e ih =>
    cases need <;> simp only [cobsWalk] at h <;> split at h
    case zero.isTrue => exact .inl (Except.error.inj h).symm
    case succ.isTrue hdata => exact .inr (.inr ⟨(Except.error.inj h).symm, hdata.2⟩)
    all_goals
      split at h
      · cases h
      · next hrest =>
        cases h
        exact ih hrest

theorem cobsUnframe_error {strict : Bool} {f : Bytes} {c : ErrorCode} (h : cobsUnframe strict f = .error c) :
    c = .missingDelimiter ∨ ∃ e, cobsDecode strict e = .error c := by
  unfold cobsUnframe at h
  split at h
  · exact .inr ⟨_, h⟩
  · exact .inl (Except.error.inj h).symm

theorem cobsEncode_error {d : Bytes} {c : ErrorCode} (h : cobsEncode d = .error c) : c = .oversize := by
  unfold cobsEncode at h
  split at h
  · exact (Except.error.inj h).symm
  · cases h

theorem cobsFrame_error {d : Bytes} {c : ErrorCode} (h : cobsFrame d = .error c) : c = .oversize := by
  unfold cobsFrame at h
  split at h
  · cases h
  · next henc =>
    cases h
    exact cobsEncode_error henc

theorem crc16CheckAndStrip_error {u : Bytes} {c : ErrorCode} (h : crc16CheckAndStrip u = .error c) :
    c = .checksumMismatch := by
  unfold crc16CheckAndStrip at h
  split at h
  · dsimp only at h
    split at h
    · cases h
    · exact (Except.error.inj h).symm
  · exact (Except.error.inj h).symm

theorem msgPack_error {id : Byte} {p : Bytes} {c : ErrorCode} (h : msgPack id p = .error c) : c = .oversize := by
  unfold msgPack at h
  split at h
  · exact (Except.error.inj h).symm
  · cases h

theorem msgUnpack_error {reject : Bool} {b : Bytes} {c : ErrorCode} (h : msgUnpack reject b = .error c) :
    c = .msgTooShort ∨ c = .msgTruncated ∨ (c = .msgTrailing ∧ reject = true) := by
  unfold msgUnpack at h
  split at h
  · split at h
    · exact .inr (.inl (Except.error.inj h).symm)
    · split at h
      · next htrailing => exact .inr (.inr ⟨(Except.error.inj h).symm, htrailing.1⟩)
      · cases h
  · exact .inl (Except.error.inj h).symm

theorem structPack_error {l : Layout} {vs : List Word64} {c : ErrorCode} (h : structPack l vs = .error c) :
    c = .enumUnknown ∨ c = .fieldRange := by
  rcases packFields_outcomes (l.fields.zip vs) with ⟨out, ho, -⟩ | he | he
  · cases ho.symm.trans h
  · exact .inl (Except.error.inj (he.symm.trans h)).symm
  · exact .inr (Except.error.inj (he.symm.trans h)).symm

theorem unpackFields_error {fs : List FieldDesc} {b : Bytes} {c : ErrorCode} (h : unpackFields fs b = .error c) :
    c = .enumUnknown := by
  induction fs generalizing b with
  | nil => cases h
  | cons f fs ih =>
    simp only [unpackFields] at h
    split at h
    · split at h
      · cases h
      · next hrest =>
        cases h
        exact ih hrest
    · exact (Except.error.inj h).symm

theorem structUnpack_error {l : Layout} {b : Bytes} {c : ErrorCode} (h : structUnpack l b = .error c) :
    c = .structTooShort ∨ c = .enumUnknown := by
  unfold structUnpack at h
  split at h
  · exact .inl (Except.error.inj h).symm
  · exact .inr (unpackFields_error h)

/-- R230: both stages that can fail give OVERSIZE. -/
theorem txFrame_error {id : Byte} {p : Bytes} {c : ErrorCode} (h : txFrame id p = .error c) : c = .oversize := by
  unfold txFrame at h
  split at h
  · next hpack =>
    cases h
    exact msgPack_error hpack
  · split at h
    · next hframe =>
      cases h
      exact cobsFrame_error hframe
    · cases h

/-- R231: an error is that of one of the three stages. -/
theorem rxFrame_error {strict reject : Bool} {f : Bytes} {c : ErrorCode} (h : rxFrame strict reject f = .error c) :
    cobsUnframe strict f = .error c ∨ c = .checksumMismatch ∨ ∃ d, msgUnpack reject d = .error c := by
  unfold rxFrame at h
  split at h
  · next hunframe =>
    cases h
    exact .inl hunframe
  · split at h
    · next hstrip =>
      cases h
      exact .inr (.inl (crc16CheckAndStrip_error hstrip))
    · split at h
      · next hunpack =>
        cases h
        exact .inr (.inr ⟨_, hunpack⟩)
      · cases h

/-! ### The errors of the bodies -/

/-- R250: the table lists the error `c` for the command `i`, and the build has the flag that `c` needs. For a given
error and command the first field is a look into the tables; the other two speak of COBS_DATA_ZERO and MSG_TRAILING
alone. -/
structure ErrorCode.Listed (c : ErrorCode) (i : Instr) (s : State) : Prop where
  code : (c.code = 1 ∧ (inputCap i).isSome = true) ∨ c.code.toNat ∈ possibleErrors i := by decide
  strict : c.code = 4 → s.config.strictZero = true := by simp [ErrorCode.code]
  reject : c.code = 9 → s.config.rejectTrailing = true := by simp [ErrorCode.code]

section
variable {i : Instr} {s : State} {c : ErrorCode}

theorem listed_oversize (hi : (inputCap i).isSome = true) : ErrorCode.oversize.Listed i s where
  code := .inl ⟨rfl, hi⟩

/-- R255 (1): beside the errors of its body, a command that reads IN has OVERSIZE. -/
theorem listed_of_withInput_error {cap : Nat} {body : Bytes → Except ErrorCode Effect}
    (h : s.withInput cap body = .error c) (hi : (inputCap i).isSome = true)
    (hbody : body s.input = .error c → c.Listed i s) : c.Listed i s := by
  rcases Nat.lt_or_ge cap s.inLen.toNat with hlong | hshort
  · obtain rfl := Except.error.inj ((State.withInput_gt hlong).symm.trans h)
    exact listed_oversize hi
  · exact hbody ((State.withInput_le hshort).symm.trans h)

theorem bytesOut_error {r : Except ErrorCode Bytes} (h : bytesOut r = .error c) : r = .error c := by
  cases r with
  | ok bs => cases h
  | error e => exact congrArg _ (Except.error.inj h)

/-- R250: a command whose codec function has no error but OVERSIZE. -/
theorem listed_of_withInput_oversize {cap : Nat} {f : Bytes → Except ErrorCode Bytes}
    (h : s.withInput cap (fun d => bytesOut (f d)) = .error c) (hi : (inputCap i).isSome = true)
    (hf : ∀ {d : Bytes} {c : ErrorCode}, f d = .error c → c = .oversize) : c.Listed i s :=
  listed_of_withInput_error h hi fun h => hf (bytesOut_error h) ▸ listed_oversize hi

theorem listed_of_cobsDecode_error {e : Bytes} (h : cobsDecode s.config.strictZero e = .error c)
    (hi : [2, 3, 4] ⊆ possibleErrors i) : c.Listed i s := by
  rcases cobsWalk_error h with rfl | rfl | ⟨rfl, hstrict⟩
  · exact { code := .inr (hi (by decide)) }
  · exact { code := .inr (hi (by decide)) }
  · exact { code := .inr (hi (by decide)), strict := fun _ => hstrict }

theorem listed_of_cobsUnframe_error {f : Bytes} (h : cobsUnframe s.config.strictZero f = .error c)
    (hi : [2, 3, 4, 5] ⊆ possibleErrors i) : c.Listed i s := by
  rcases cobsUnframe_error h with rfl | ⟨e, hdec⟩
  · exact { code := .inr (hi (by decide)) }
  · exact listed_of_cobsDecode_error hdec (List.Subset.trans (by decide) hi)

theorem listed_of_msgUnpack_error {b : Bytes} (h : msgUnpack s.config.rejectTrailing b = .error c)
    (hi : [7, 8, 9] ⊆ possibleErrors i) : c.Listed i s := by
  rcases msgUnpack_error h with rfl | rfl | ⟨rfl, hreject⟩
  · exact { code := .inr (hi (by decide)) }
  · exact { code := .inr (hi (by decide)) }
  · exact { code := .inr (hi (by decide)), reject := fun _ => hreject }

end

/-- R250: every error of a command's body is one the table lists for the command. -/
theorem commandBody_error_listed {i : Instr} {s : State} {c : ErrorCode} (h : commandBody i s = .error c) :
    c.Listed i s := by
  cases i <;> dsimp only [commandBody] at h
  case crcCalc | crcUpdate | crcVerify | crcAppend => exact listed_of_withInput_error h rfl nofun
  case crcCheckStrip =>
    refine listed_of_withInput_error h rfl fun h => ?_
    split at h
    · cases h
    · next hstrip =>
      cases h
      obtain rfl := crc16CheckAndStrip_error hstrip
      exact {}
  case cobsEncode => exact listed_of_withInput_oversize h rfl cobsEncode_error
  case cobsDecode =>
    exact listed_of_withInput_error h rfl fun h => listed_of_cobsDecode_error (bytesOut_error h) (by decide)
  case cobsFrame => exact listed_of_withInput_oversize h rfl cobsFrame_error
  case cobsUnframe =>
    exact listed_of_withInput_error h rfl fun h => listed_of_cobsUnframe_error (bytesOut_error h) (by decide)
  case msgPack => exact listed_of_withInput_oversize h rfl msgPack_error
  case msgUnpack =>
    refine listed_of_withInput_error h rfl fun h => ?_
    split at h
    · cases h
    · next hunpack =>
      cases h
      exact listed_of_msgUnpack_error hunpack (by decide)
  case msgIsResponse | msgGetRequestId | msgClassify => cases h
  case structPack =>
    unfold structPackBody at h
    split at h
    · obtain rfl := Except.error.inj h
      exact {}
    · rcases structPack_error (bytesOut_error h) with rfl | rfl <;> exact {}
  case structUnpack =>
    refine listed_of_withInput_error h rfl fun h => ?_
    split at h
    · obtain rfl := Except.error.inj h
      exact {}
    · split at h
      · cases h
      · next hunpack =>
        cases h
        rcases structUnpack_error hunpack with rfl | rfl <;> exact {}
  case txFrame =>
    unfold txFrameBody at h
    split at h
    · cases h
    · next hframe =>
      cases h
      obtain rfl := txFrame_error hframe
      exact {}
  case rxFrame =>
    refine listed_of_withInput_error h rfl fun h => ?_
    split at h
    · cases h
    · next hrx =>
      cases h
      rcases rxFrame_error hrx with hunframe | rfl | ⟨d, hunpack⟩
      · exact listed_of_cobsUnframe_error hunframe (by decide)
      · exact {}
      · exact listed_of_msgUnpack_error hunpack (by decide)

/-- Settles O19: ERR is 0 after a success, and the number of an error the table lists after a failure. -/
theorem errorCodesComeFromTheirCommands : Obligations.ErrorCodesComeFromTheirCommands := by
  intro i s t ht
  rcases exec_cases ht with ⟨e, -, rfl⟩ | ⟨c, hc, rfl⟩
  · exact ⟨.inl rfl, nofun, nofun⟩
  · obtain ⟨hcode, hstrict, hreject⟩ := commandBody_error_listed hc
    exact ⟨.inr hcode, hstrict, hreject⟩

end Sys2Proof.Machine
end

section
/-! ## Runs, the busy window and a host that polls (R14, R283 to R288) -/

namespace Sys2Proof.Machine

/-- R253: what the engine's turn does whatever was running: it leaves the block idle and keeps HAZ, the configuration
and the agenda. -/
theorem engineTurn_keep {s t : State} (h : engineTurn s = .next t) :
    t.config = s.config ∧ t.agenda = s.agenda ∧ t.status.busy = false ∧ t.status.haz = s.status.haz := by
  rcases engineTurn_cases s with ⟨hb, hs⟩ | ⟨-, i, -, hs⟩ | ⟨-, -, hs⟩
  · obtain rfl := Host.Outcome.next.inj (hs.symm.trans h)
    exact ⟨rfl, rfl, hb, rfl⟩
  · exact exec_keep (hs.symm.trans h)
  · obtain rfl := Host.Outcome.next.inj (hs.symm.trans h)
    exact ⟨rfl, rfl, rfl, rfl⟩

/-- What every step keeps, every run keeps. -/
theorem run_keeps {P : State → Prop} (hstep : ∀ s t : State, P s → step s = .next t → P t) {k : Nat} {s t : State}
    (hs : P s) (h : Host.Core.run Sys2Proof.core k s = .next t) : P t := by
  induction k generalizing s with
  | zero =>
    obtain rfl := Host.Outcome.next.inj h
    exact hs
  | succ k ih =>
    obtain ⟨u, hu, hrun⟩ := step_of_run h
    exact ih (hstep s u hs hu) hrun

/-! ### The configuration (R283) -/

theorem step_config {s t : State} (h : step s = .next t) : t.config = s.config := by
  rcases step_cases s with ⟨a, rest, -, hs⟩ | ⟨rest, -, hs⟩ | ⟨rest, -, hs⟩
  · obtain rfl := Host.Outcome.next.inj (hs.symm.trans h)
    exact (access_keep (s.setAgenda rest) a).1
  · exact (engineTurn_keep (hs.symm.trans h)).1
  · obtain rfl := Host.Outcome.next.inj (hs.symm.trans h)
    rfl

/-- Settles O10: no step changes the configuration, so no run does. -/
theorem configurationNeverChanges : Obligations.ConfigurationNeverChanges := by
  intro k s t h
  exact run_keeps (P := fun u => u.config = s.config) (fun _ _ hu hstep => (step_config hstep).trans hu) rfl h

/-! ### The operands of a busy command (R284) -/

/-- Settles O11, by induction on the accesses: each keeps the block busy and its operands as they are. -/
theorem busyCommandOperandsAreStable : Obligations.BusyCommandOperandsAreStable := by
  intro as
  induction as with
  | nil => exact fun s rest hb ha => ⟨s, rfl, ha, hb, rfl, rfl, rfl, rfl, rfl, rfl, rfl, rfl⟩
  | cons a as ih =>
    intro s rest hb ha
    obtain ⟨hconfig, hagenda, hkept⟩ := access_keep (s.setAgenda (as.map Event.host ++ .engine :: rest)) a
    obtain ⟨hbusy, hop, hlen, harg, hid, hlayout, hfields, hmem⟩ := hkept hb
    obtain ⟨t, hrun, ht⟩ := ih _ rest hbusy hagenda
    rw [hop, hlen, harg, hid, hlayout, hfields, hconfig, hmem] at ht
    exact ⟨t, (run_step (step_host ha)).trans hrun, ht⟩

/-! ### A host that polls (R285, R286, R288) -/

theorem lt_four_of_placeAt_cmd {off : Nat} (h : placeAt off = .cmd) : off < 4 := by
  unfold placeAt at h
  split at h
  · unfold controlRegister at h
    split at h
    case h_1 hword => omega
    all_goals cases h
  · unfold fieldRegister at h
    repeat' split at h
    all_goals cases h

/-- R91: on an idle block a write sets BUSY at CMD alone. -/
theorem writePlace_stays_idle {s : State} {off : Nat} (hb : s.status.busy = false) (hoff : placeAt off ≠ .cmd)
    (n : Nat) (v : Word32) : (s.writePlace off n v).status.busy = false := by
  unfold State.writePlace
  simp only [State.unlessBusy_idle hb]
  split
  case h_1 hcmd => exact absurd hcmd hoff
  case h_2 => split <;> exact hb
  all_goals exact hb

/-- R65, R70, R91: the one write that sets BUSY on an idle block is a word write of CMD. -/
theorem memWrite_busy_of_idle {s : State} (hb : s.status.busy = false) (off : BitVec 12) (w : AccessWidth)
    (v : Word32) : (s.memWrite off w v).status.busy = (w == .word && off == 0x000) := by
  by_cases hcmd : w = .word ∧ off = 0x000
  · obtain ⟨rfl, rfl⟩ := hcmd
    rw [memWrite_cmd, State.unlessBusy_idle hb]
    rfl
  · have hfalse : (w == .word && off == 0x000) = false := by simpa using hcmd
    rw [hfalse]
    by_cases hl : LegalAccess off.toNat w
    · rw [memWrite_of_legal hl]
      refine writePlace_stays_idle hb (fun hplace => hcmd ?_) _ _
      have hlt := lt_four_of_placeAt_cmd hplace
      obtain ⟨halign, ⟨rfl, -⟩ | ⟨hbuffer, -⟩⟩ := hl
      · simp only [AccessWidth.bytes] at halign
        exact ⟨rfl, BitVec.eq_of_toNat_eq (show off.toNat = 0 by omega)⟩
      · omega
    · rw [memWrite_of_not_legal hl]
      exact hb

theorem memRead_status (s : State) (off : BitVec 12) (w : AccessWidth) : (s.memRead off w).status = s.status := by
  rcases s.memRead_eq off w with h | h <;> rw [h] <;> rfl

/-- R285, R286: HAZ stays clear under an access to an idle block, and under one to STATUS at any time. -/
theorem access_keeps_haz_clear {s : State} {a : Access} (hpoll : s.status.busy = true → accessOffset a = 0x004)
    (hhaz : s.status.haz = false) : (s.access a).status.haz = false := by
  cases a with
  | read off w => exact (congrArg Status.haz (memRead_status s off w)).trans hhaz
  | write off w v =>
    show (s.memWrite off w v).status.haz = false
    rcases s.memWrite_eq off w v with ⟨-, he⟩ | ⟨-, he⟩
    · rw [he, State.reply_status]
      cases hb : s.status.busy with
      | true =>
        obtain rfl : off = 0x004 := hpoll hb
        show (s.writePlace 0x004 w.bytes v).status.haz = false
        rw [writePlace_status, hhaz, Bool.false_and]
      | false =>
        have hcases := s.writePlace_cases off.toNat w.bytes v
        rw [hb] at hcases
        rcases hcases with h | h | ⟨⟨⟩, -⟩ | ⟨-, h | h | h | h | h | ⟨i, h⟩ | ⟨i, h⟩ | ⟨-, h⟩⟩ <;> simp [h, hhaz]
    · rw [he]
      exact hhaz

theorem polite_engine (b : Bool) (es : List Event) : polite b (.engine :: es) = polite false es := by cases b <;> rfl

theorem polite_reset (b : Bool) (es : List Event) : polite b (.reset :: es) = polite false es := by cases b <;> rfl

theorem polite_busy_access {a : Access} {es : List Event} (h : polite true (.host a :: es) = true) :
    accessOffset a = 0x004 ∧ polite true es = true := by
  simpa [polite] using h

theorem polite_idle_write (off : BitVec 12) (w : AccessWidth) (v : Word32) (es : List Event) :
    polite false (.host (.write off w v) :: es) = polite (w == .word && off == 0x000) es := by
  cases w <;> rfl

/-- R288: what `polite` asks of the agenda after an access is what it asks under the BUSY that the access leaves. -/
theorem polite_after_access {s : State} {a : Access} {es : List Event}
    (h : polite s.status.busy (.host a :: es) = true) : polite (s.access a).status.busy es = true := by
  cases hb : s.status.busy with
  | true =>
    rw [hb] at h
    obtain ⟨-, -, hkept⟩ := access_keep s a
    obtain ⟨hbusy, -⟩ := hkept hb
    rw [hbusy]
    exact (polite_busy_access h).2
  | false =>
    rw [hb] at h
    cases a with
    | read off w =>
      rw [State.access, memRead_status, hb]
      exact h
    | write off w v =>
      rw [State.access, memWrite_busy_of_idle hb, ← polite_idle_write off w v]
      exact h

/-- R288: the host still to come polls, and HAZ is clear. -/
structure PollingHazardFree (s : State) : Prop where
  polls : polite s.status.busy s.agenda = true
  hazClear : s.status.haz = false

theorem PollingHazardFree.next_access {s : State} (h : PollingHazardFree s) {a : Access} {rest : List Event}
    (hb : s.status.busy = true) (ha : s.agenda = .host a :: rest) : accessOffset a = 0x004 := by
  have hp := h.polls
  rw [hb, ha] at hp
  exact (polite_busy_access hp).1

theorem PollingHazardFree.access {s : State} {a : Access} {rest : List Event} (h : PollingHazardFree s)
    (ha : s.agenda = .host a :: rest) : PollingHazardFree ((s.setAgenda rest).access a) where
  polls := by
    obtain ⟨-, hagenda, -⟩ := access_keep (s.setAgenda rest) a
    rw [hagenda]
    exact polite_after_access (s := s.setAgenda rest) (ha ▸ h.polls)
  hazClear := access_keeps_haz_clear (s := s.setAgenda rest) (fun hb => h.next_access hb ha) h.hazClear

theorem PollingHazardFree.engineTurn {s t : State} {rest : List Event} (h : PollingHazardFree s)
    (ha : s.agenda = .engine :: rest ∨ (s.agenda = [] ∧ rest = []))
    (ht : engineTurn (s.setAgenda rest) = .next t) : PollingHazardFree t := by
  obtain ⟨-, hagenda, hidle, hhaz⟩ := engineTurn_keep ht
  refine ⟨?_, hhaz.trans h.hazClear⟩
  rw [hagenda, hidle]
  rcases ha with ha | ⟨-, rfl⟩
  · exact (polite_engine _ rest).symm.trans (ha ▸ h.polls)
  · rfl

theorem PollingHazardFree.step {s t : State} (h : PollingHazardFree s) (ht : step s = .next t) :
    PollingHazardFree t := by
  rcases step_cases s with ⟨a, rest, ha, hs⟩ | ⟨rest, ha, hs⟩ | ⟨rest, ha, hs⟩
  · obtain rfl := Host.Outcome.next.inj (hs.symm.trans ht)
    exact h.access ha
  · exact h.engineTurn ha (hs.symm.trans ht)
  · obtain rfl := Host.Outcome.next.inj (hs.symm.trans ht)
    exact ⟨(polite_reset _ rest).symm.trans (ha ▸ h.polls), rfl⟩

/-- Settles O13: every step keeps `PollingHazardFree`, and it fixes the next access of a busy block. -/
theorem pollingHostNeverSetsHazard : Obligations.PollingHostNeverSetsHazard := by
  intro k s t hpolls hhaz hrun
  have ht : PollingHazardFree t := run_keeps (fun _ _ hs hstep => hs.step hstep) ⟨hpolls, hhaz⟩ hrun
  exact ⟨ht.hazClear, fun hb a rest ha => ht.next_access hb ha⟩

end Sys2Proof.Machine
end
